-- ==== Sys2Proof/Word.lean ====
section
/-! DEFINITION. The two word types of the block: bytes and 16-bit words (00_scope.md R13). -/

namespace Sys2Proof

/-- u8: an unsigned 8-bit value, bit 0 least significant (R13). -/
abbrev Byte := BitVec 8

/-- u16: an unsigned 16-bit value (R13): an event word (R101), a pair of bytes (R62). A timer register is `TimerWord`, of DUTY_BITS (R8). -/
abbrev Word := BitVec 16

end Sys2Proof
end

