-- ==== Sys2Proof/Config.lean ====
section
/-! DEFINITION. Implementation parameters (00_scope.md R8, R9, R10): the constants the source fixes, by name; the values
the spec decides; and the parameters it leaves OPEN, as constants without a body, so that no proof can rest on a value.
None of them is state (R20). -/

namespace Sys2Proof.Config

/-! ## Constants the source fixes (R8)

R8: never as literals. The five that shape a type are reducible, so that the type is the plain one to every lemma. -/

/-- NCHAN: PWM channels. -/
abbrev nchan : Nat := 2
/-- NSAMP: analog channels in the scan list. -/
abbrev nsamp : Nat := 4
/-- SAMPLE_BITS: width of one sample. -/
abbrev sampleBits : Nat := 8
/-- FRAME_BYTES: bytes per command frame. -/
abbrev frameBytes : Nat := 8
/-- BYTE_EDGES: edges per byte. -/
def byteEdges : Nat := 16
/-- FRAME_EDGES: edges per frame. -/
def frameEdges : Nat := 128
/-- THRESH: an interval below it is bit 1, any other bit 0. -/
def thresh : Nat := 5
/-- SAT: the value PULSE saturates at; an edge that finds it resynchronises. -/
def sat : Byte := 255
/-- HYST_I: current hysteresis band, raw counts. -/
def hystI : Nat := 10
/-- HYST_V: voltage hysteresis band, raw counts. -/
def hystV : Nat := 20
/-- DUTY_BITS: width of a duty register. -/
abbrev dutyBits : Nat := 16
/-- F_PWM of the reference configuration, in Hz (R10); used by no rule. -/
def fPwmReference : Nat := 20000

/-! ## Values the spec decides (R10) -/

/-- DATA_PARITY = 1 (R10, R199, D10, C1): an edge is a data edge when the edge count it finds has this low bit.
DESIGN CHOICE of the spec, log 10. -/
def dataParity : Bool := true

/-- CRC_CLEAR_AT_FRAME_END (R10, R207, D11, C2). DESIGN CHOICE of the spec, log 11. -/
def crcClearAtFrameEnd : Bool := true

/-- SP_RESET (R10, R31, D7, C7). DESIGN CHOICE of the spec, log 7. -/
def spReset : Vector Byte frameBytes := #v[220, 220, 72, 72, 0, 0, 0, 0]

/-! ## OPEN parameters (R9, R10, U5, U6) -/

/-- Which of the 65535 admitted values of PERIOD this block was built with. OPEN (R9, D17), log 1. -/
opaque periodIndex : Fin 65535

/-- PERIOD (R9): an integer in 1..65535, every one of them possible, and nothing else known of it; DUTY_BITS wide (R9). -/
def period : BitVec dutyBits := BitVec.ofNat dutyBits (periodIndex.val + 1)

/-- CHANLIST (R10, R172, D18): the multiplexer select code of each scan slot. OPEN, log 20. -/
opaque chanList : Fin nsamp → Nat

/-- OUT_ACTIVE_LEVEL (R10, R152, D20): the electrical level of an active PWM output. OPEN, log 20. -/
opaque outActiveLevel : Bool

/-- How many bits the converter has beyond a sample's; ADC_BITS is SAMPLE_BITS plus this (R10, R177, D18). OPEN, log 20. -/
opaque adcExtraBits : Nat

/-- ADC_BITS (R10, R177): native converter resolution, at least SAMPLE_BITS = 8. -/
def adcBits : Nat := sampleBits + adcExtraBits

/-- F_CLK (R10): the timer clock in Hz. OPEN; used by no rule, log 21. -/
opaque fClk : Nat

/-- LOOP_DELAY (R10, R242, D19): the pacing delay of the control loop. OPEN; used by no rule, log 21. -/
opaque loopDelay : Nat

/-- The range assertion of R9 and R131: PERIOD must fit the timer's register width, DUTY_BITS (R9). -/
def periodInRange (p : Nat) : Bool := decide (1 ≤ p) && decide (p < 2 ^ dutyBits)

/-- R9: PERIOD = timer_clock div pwm_frequency, the remainder discarded. `none` where the range assertion fails: the
model is then refused at instantiation (U5). -/
def periodOf (timerClock pwmFrequency : Nat) : Option Nat :=
  if periodInRange (timerClock / pwmFrequency) then some (timerClock / pwmFrequency) else none

end Sys2Proof.Config
end

