-- ==== Sys2Proof/Syntax.lean ====
section
/-! DEFINITION. The operations of the block (30_encoding.md R100), one constructor per row of the opcode table, and the raw
fields of an event word (R101). -/

namespace Sys2Proof

/-- The eight operations (R100). Each is one atomic transition of the block's state (R68). -/
inductive Instr where
  /-- IDLE: nothing happens (R132). -/
  | idle
  /-- RESET: `rst` asserted, power-on (R130). -/
  | reset
  /-- INIT: the Peripheral Configurator runs (R131). -/
  | init
  /-- CLK: one period of the timer clock (R151). -/
  | clk
  /-- TICK: the reference-timer overflow handler runs (R185). -/
  | tick
  /-- EDGE: the edge handler runs (R197). -/
  | edge
  /-- ADCDONE r: conversion complete with result high byte r (R171); u8, so the operand's range is its type (R102). -/
  | adcdone (r : Byte)
  /-- LSTEP: the main loop does its next step (R231). -/
  | lstep
deriving DecidableEq, Repr

/-- The three fields of an event word (R101), whatever they hold: the form before any check. -/
structure EventFields where
  /-- Bits 15:12, the operation code. -/
  op : BitVec 4
  /-- Bits 11:8, which must be 0000. -/
  z : BitVec 4
  /-- Bits 7:0, the operand; must be 0 for an operation without one. -/
  imm8 : Byte
deriving DecidableEq, Repr

/-- The intervals of one bit cell of a stimulus (R108): gap before the opening edge, then the data interval that stands for
a 1 and the one that stands for a 0, in ticks. -/
structure CellTiming where
  gap : Nat
  d1 : Nat
  d0 : Nat
deriving DecidableEq, Repr

end Sys2Proof
end

