-- ==== Sys2Proof/WellFormed.lean ====
section
/-! DEFINITION. What makes an operation, the fields of an event word and the timing of a bit cell well formed
(30_encoding.md R101, R102, R104, R108). -/

namespace Sys2Proof

/-- Every operation is well formed: the one operand, u8, has its range in its type (R100, R102). -/
def Instr.wf : Instr → Bool
  | .idle => true
  | .reset => true
  | .init => true
  | .clk => true
  | .tick => true
  | .edge => true
  | .adcdone _ => true
  | .lstep => true

/-- The operation code is assigned: 0x0 to 0x7 (R103); 0x8 to 0xF are reserved (R104). -/
def EventFields.opAssigned (f : EventFields) : Bool := decide (f.op.toNat < 8)

/-- The z field is 0000 (R101). -/
def EventFields.zeroZ (f : EventFields) : Bool := decide (f.z = 0)

/-- An operation without operand (every one but ADCDONE, op 0x6) has imm8 = 0 (R101, R104). -/
def EventFields.operandAllowed (f : EventFields) : Bool := decide (f.op = 6) || decide (f.imm8 = 0)

/-- The fields of an assigned event word: none of the three grounds of R104 holds. -/
def EventFields.wf (f : EventFields) : Bool := f.opAssigned && f.zeroZ && f.operandAllowed

/-- The gap keeps the line live (R92, R108): at most 254 ticks. Only the first gap of a frame may be longer. -/
def CellTiming.gapLive (c : CellTiming) : Bool := decide (c.gap < Config.sat.toNat)

/-- The interval that stands for a 1 is at most 4 ticks (R108). -/
def CellTiming.oneShort (c : CellTiming) : Bool := decide (c.d1 < Config.thresh)

/-- The interval that stands for a 0 is from 5 to 254 ticks (R108). -/
def CellTiming.zeroLong (c : CellTiming) : Bool := decide (Config.thresh ≤ c.d0) && decide (c.d0 < Config.sat.toNat)

/-- The requirements of SENDBIT (R108), for a cell that is not the first of a frame. -/
def CellTiming.wf (c : CellTiming) : Bool := c.gapLive && c.oneShort && c.zeroLong

end Sys2Proof
end

