-- ==== Sys2Proof/Decode.lean ====
section
/-! DEFINITION. The stream decoder and the encoder of event words (30_encoding.md R101 to R104). Decoding is total on any
bytes and rejects by name; a reserved word is never read as IDLE nor as the nearest assigned word (R104). -/

namespace Sys2Proof

/-- Why the stream decoder takes no operation from the bytes it is given. -/
inductive DecodeError where
  /-- Op 0x8 to 0xF (R104). -/
  | reservedOp (w : Word)
  /-- The op is assigned and z is not 0000 (R104). -/
  | nonzeroZ (w : Word)
  /-- An N-format operation with a non-zero imm8 (R104). -/
  | operandOnNFormat (w : Word)
  /-- One byte is left where a word needs two (R101: every event word is 16 bits). -/
  | truncated (b : Byte)
  /-- No byte is left: the stream has ended (R254). -/
  | endOfStream
deriving DecidableEq, Repr

/-- Bits 15:12 (R101). -/
def opField (w : Word) : BitVec 4 := w.extractLsb' 12 4
/-- Bits 11:8 (R101). -/
def zField (w : Word) : BitVec 4 := w.extractLsb' 8 4
/-- Bits 7:0 (R101); used as it stands, extended nowhere (R102). -/
def imm8Field (w : Word) : Byte := w.extractLsb' 0 8

/-- The raw fields of a word (R101). -/
def fieldsOf (w : Word) : EventFields := ⟨opField w, zField w, imm8Field w⟩

/-- N format: all sixteen bits are fixed (R102). -/
def maskN : Word := 0xFFFF
/-- I format: the operand's eight bits are free (R102). -/
def maskI : Word := 0xFF00

/-- The format of a row (R102). -/
inductive Format where
  | n
  | i
deriving DecidableEq, Repr

/-- One row of the opcode map (R103): its format, its match value and its operation code. -/
structure OpcodeRow where
  format : Format
  pattern : Word
  op : BitVec 4
deriving DecidableEq, Repr

/-- The mask of a row's format (R102). -/
def OpcodeRow.mask (r : OpcodeRow) : Word :=
  match r.format with
  | .n => maskN
  | .i => maskI

/-- The opcode map (R103), row by row. -/
def opcodeRows : List OpcodeRow :=
  [ ⟨.n, 0x0000, 0x0⟩,
    ⟨.n, 0x1000, 0x1⟩,
    ⟨.n, 0x2000, 0x2⟩,
    ⟨.n, 0x3000, 0x3⟩,
    ⟨.n, 0x4000, 0x4⟩,
    ⟨.n, 0x5000, 0x5⟩,
    ⟨.i, 0x6000, 0x6⟩,
    ⟨.n, 0x7000, 0x7⟩ ]

/-- A word selects the row whose (w and mask) = match (R103). -/
def OpcodeRow.selects (r : OpcodeRow) (w : Word) : Bool := decide (w &&& r.mask = r.pattern)

/-- The operation an op code names, with the operand byte r (R103); none for the reserved codes. -/
def operationOf (op : BitVec 4) (r : Byte) : Option Instr :=
  match op.toNat with
  | 0 => some .idle
  | 1 => some .reset
  | 2 => some .init
  | 3 => some .clk
  | 4 => some .tick
  | 5 => some .edge
  | 6 => some (.adcdone r)
  | 7 => some .lstep
  | _ => none

/-- The ground on which a word of no row is refused, in R104's order. -/
def rejectionOf (w : Word) : DecodeError :=
  let f := fieldsOf w
  if f.opAssigned = false then .reservedOp w
  else if f.zeroZ = false then .nonzeroZ w
  else .operandOnNFormat w

/-- One event word: the operation of the row it selects, or the ground of its refusal (R103, R104). -/
def decodeWord (w : Word) : Except DecodeError Instr :=
  match opcodeRows.find? (fun r => r.selects w) with
  | some r =>
    match operationOf r.op (imm8Field w) with
    | some i => .ok i
    | none => .error (rejectionOf w)
  | none => .error (rejectionOf w)

/-- The first operation of a byte stream and the bytes after it; the high byte of a word comes first (R101). -/
def decode : List Byte → Except DecodeError (Instr × List Byte)
  | hi :: lo :: rest =>
    match decodeWord (hi ++ lo) with
    | .ok i => .ok (i, rest)
    | .error e => .error e
  | [b] => .error (.truncated b)
  | [] => .error .endOfStream

/-- What the host's table word decodes to: the instruction whose bits are w, bit 0 the least significant bit of the one
16-bit word, every bit at or above nbits 0, laid out high byte first (R101). -/
def decodeTableWord (nbits w : Nat) : Option Instr :=
  let word : Word := BitVec.ofNat 16 (w % 2 ^ nbits)
  match decode [word.extractLsb' 8 8, word.extractLsb' 0 8] with
  | .ok (i, _) => some i
  | .error _ => none

/-! ## The encoder -/

/-- The operation code of each operation (R103). -/
def opcodeOf : Instr → BitVec 4
  | .idle => 0x0
  | .reset => 0x1
  | .init => 0x2
  | .clk => 0x3
  | .tick => 0x4
  | .edge => 0x5
  | .adcdone _ => 0x6
  | .lstep => 0x7

/-- The operand byte of each operation, 0 where it has none (R101). -/
def operandOf : Instr → Byte
  | .idle => 0
  | .reset => 0
  | .init => 0
  | .clk => 0
  | .tick => 0
  | .edge => 0
  | .adcdone r => r
  | .lstep => 0

/-- The event word of an operation: op, 0000, imm8 from the high bits down (R102). -/
def encode (i : Instr) : Word := (opcodeOf i ++ (0 : BitVec 4)) ++ operandOf i

/-- The two bytes of an operation's event word, high byte first (R101). -/
def encodeBytes (i : Instr) : List Byte := [(encode i).extractLsb' 8 8, (encode i).extractLsb' 0 8]

/-- A stream of operations as bytes (R101). -/
def encodeStream (ops : List Instr) : List Byte := ops.flatMap encodeBytes

end Sys2Proof
end

