-- ==== Sys2Proof/Machine/State.lean ====
section
/-! DEFINITION. The state of the block (10_state.md R20: the tuple of that rule, and beside it the stimulus stream the model
reads its operations from), the reasons a step can stop, and the state after reset (R40). -/

namespace Sys2Proof.Machine

/-- LPH, the phase register of the control-loop sequencer (R34): a type of exactly eleven values, named as R231's table names
them, in the order of their numbers 0 to 10. -/
inductive Phase where
  | ldIm1
  | ldIl1
  | ldVm1
  | ldVl1
  | adj1
  | ldIm2
  | ldIl2
  | ldVm2
  | ldVl2
  | adj2
  | wait
deriving DecidableEq, Repr

/-- One analog sample: SAMPLE_BITS wide (R8, R32). -/
abbrev Sample := BitVec Config.sampleBits

/-- A register of a PWM timer, period, counter or duty: DUTY_BITS wide (R8, R9, R24). -/
abbrev TimerWord := BitVec Config.dutyBits

/-- The state of the machine. The fields up to `aVl` are the tuple of R20, complete; `stim` and `pos` are the model's own
(logs 2 and 3): the operations the environment has chosen and not yet applied, and how many were taken. -/
structure State where
  /-- RUN (R21): the Configurator has run. -/
  run : Bool
  /-- LPH (R34). -/
  lph : Phase
  /-- PER1 (R22). -/
  per1 : TimerWord
  /-- PER2 (R22). -/
  per2 : TimerWord
  /-- CNT1 (R23). -/
  cnt1 : TimerWord
  /-- CNT2 (R23). -/
  cnt2 : TimerWord
  /-- DUTY1 (R24). -/
  duty1 : TimerWord
  /-- DUTY2 (R24). -/
  duty2 : TimerWord
  /-- PULSE (R26). -/
  pulse : Byte
  /-- ECNT (R27), stored width 8 bits (D12). -/
  ecnt : Byte
  /-- BYTE (R28). -/
  byte : Byte
  /-- CRC (R29). -/
  crc : Byte
  /-- CMD[0..7] (R30). -/
  cmd : Vector Byte Config.frameBytes
  /-- SP[0..7] (R31). -/
  sp : Vector Byte Config.frameBytes
  /-- SMP[0..3] (R32). -/
  smp : Vector Sample Config.nsamp
  /-- SCTL.CH (R33), 2 bits. -/
  ch : Fin Config.nsamp
  /-- SCTL.CONV (R33). -/
  conv : Bool
  /-- A_IM (R35). -/
  aIm : Byte
  /-- A_IL (R35). -/
  aIl : Byte
  /-- A_VM (R35). -/
  aVm : Byte
  /-- A_VL (R35). -/
  aVl : Byte
  /-- The stimulus still to come, as bytes, the high byte of each event word first (R101). The model's own, log 2. -/
  stim : List Byte
  /-- How many event words have been taken from the stimulus (R104 names a word's position). The model's own, log 3. -/
  pos : Nat
deriving DecidableEq, Repr

/-- The block raises no exception and has no cause codes (R270): there is no fault to name, and nothing raises one. Safe:
a machine that cannot fault claims no behaviour for a fault (log 19). -/
inductive Fault where
deriving DecidableEq, Repr

/-- The reasons the model gives a stimulus or an access no meaning. Each is a verdict of the model, not a behaviour of the
hardware, and each is safe: the model stops where nothing is specified. -/
inductive Refusal where
  /-- Raised by an arm of exec whose instruction has no meaning yet; no arm is left so. Safe. -/
  | notModelled (mnemonic : String)
  /-- Raised by INIT when RUN = 1 (R133, U1, D15): the source describes no second configuration. Safe. -/
  | initWhileRunning
  /-- Raised by the fetch of an event word that is in no row of the opcode map (R104, U2, D28): the word's position in the
  stream, from 0, and the word. Safe. -/
  | reservedWord (pos : Nat) (w : Word)
  /-- Raised by the fetch when one byte is left of a stream of two-byte words (R101): its position as a word, and the byte. Safe,
  log 4. -/
  | truncatedWord (pos : Nat) (b : Byte)
  /-- Raised by the fetch when the stimulus has ended (R254: the end of a run is wherever the stream ends), with the number of
  words taken. Safe, log 4. -/
  | endOfStimulus (pos : Nat)
  /-- Raised by a two-byte access of the memory primitive at an odd address (R63, U3). Safe. -/
  | misalignedPair (addr : Nat)
  /-- Raised by the memory primitive for an address above 0x2F (R63, U3). Safe. -/
  | outsideDataSpace (addr : Nat)
  /-- Raised by the memory primitive for a write of 11 to 15 into LPH, a value the register cannot hold (R34, U18). Safe. -/
  | phaseNotRepresentable (v : Byte)
  /-- Raised by a write through the read-only observation port (R67, U4). Safe. -/
  | observationPortReadOnly (addr : Nat)
deriving DecidableEq, Repr

/-- The state right after RESET: R40's table, with an empty stimulus (log 2). PULSE = 255 is stated by the source; SP_RESET is
D7's, every other value D8's (logs 6 and 7). -/
def State.reset : State where
  run := false
  lph := .ldIm1
  per1 := 0
  per2 := 0
  cnt1 := 0
  cnt2 := 0
  duty1 := 0
  duty2 := 0
  pulse := Config.sat
  ecnt := 0
  byte := 0
  crc := 0
  cmd := Vector.replicate Config.frameBytes 0
  sp := Config.spReset
  smp := Vector.replicate Config.nsamp 0
  ch := 0
  conv := false
  aIm := 0
  aIl := 0
  aVm := 0
  aVl := 0
  stim := []
  pos := 0

end Sys2Proof.Machine
end

