-- ==== Sys2Proof/Machine/Ops.lean ====
section
/-! DEFINITION. The shared operations: the arithmetic of R14 and R15, the gate RUN puts before every operation but RESET, INIT and IDLE
(R134), the taking of an interrupt (R273, R275, R277, R278), and the local data space as a byte view of the registers with
its MemRead and MemWrite (R15, R60 to R67). -/

namespace Sys2Proof.Machine

/-! ## Arithmetic (R14, R15): exact on naturals, narrowed at the end -/

/-- sat_inc (R15): v + 1 if v < 255, else 255. -/
def satInc (v : Byte) : Byte :=
  if v.toNat < Config.sat.toNat then BitVec.ofNat 8 (v.toNat + 1) else Config.sat

/-- dec0 (R15, R245): d - 1 if d > 0, else 0. -/
def dec0 (d : TimerWord) : TimerWord :=
  if 0 < d.toNat then BitVec.ofNat Config.dutyBits (d.toNat - 1) else 0

/-- incP (R15, R246): min(d + 1, PERIOD), on mathematical integers. -/
def incP (period d : TimerWord) : TimerWord :=
  BitVec.ofNat Config.dutyBits (min (d.toNat + 1) period.toNat)

/-- One count of a PWM timer (R151): 0 when counter + 1 reaches the period, else counter + 1. -/
def countUp (per cnt : TimerWord) : TimerWord :=
  if per.toNat ≤ cnt.toNat + 1 then 0 else BitVec.ofNat Config.dutyBits (cnt.toNat + 1)

/-- The shift of R200: {BYTE[6:0], b}; old bit 7 is dropped, the new bit enters at bit 0. -/
def shiftIn (acc : Byte) (b : Bool) : Byte := acc.extractLsb' 0 7 ++ BitVec.ofBool b

/-- XOR of a list of bytes: the checksum of R96 and R203. -/
def xorBytes (bs : List Byte) : Byte := bs.foldl (fun acc b => acc ^^^ b) 0

/-- Bits 15:8 of a 16-bit register (R24, R62). -/
def hiByte (w : Word) : Byte := w.extractLsb' 8 8

/-- Bits 7:0 of a 16-bit register (R24, R62). -/
def loByte (w : Word) : Byte := w.extractLsb' 0 8

/-- {hi, lo} (R13). -/
def pair (hi lo : Byte) : Word := hi ++ lo

/-! ## The sequencer's phases (R34, R243) -/

/-- The number of a phase, 0 to 10 (R231's table). -/
def phaseNumber : Phase → Nat
  | .ldIm1 => 0
  | .ldIl1 => 1
  | .ldVm1 => 2
  | .ldVl1 => 3
  | .adj1 => 4
  | .ldIm2 => 5
  | .ldIl2 => 6
  | .ldVm2 => 7
  | .ldVl2 => 8
  | .adj2 => 9
  | .wait => 10

/-- The phase of a number; none for 11 to 15, which LPH cannot hold (R34, U18). -/
def phaseOfNumber : Nat → Option Phase
  | 0 => some .ldIm1
  | 1 => some .ldIl1
  | 2 => some .ldVm1
  | 3 => some .ldVl1
  | 4 => some .adj1
  | 5 => some .ldIm2
  | 6 => some .ldIl2
  | 7 => some .ldVm2
  | 8 => some .ldVl2
  | 9 => some .adj2
  | 10 => some .wait
  | _ => none

/-- LPH + 1, and 0 after 10 (R243): the order of the phases has no branch. -/
def nextPhase : Phase → Phase
  | .ldIm1 => .ldIl1
  | .ldIl1 => .ldVm1
  | .ldVm1 => .ldVl1
  | .ldVl1 => .adj1
  | .adj1 => .ldIm2
  | .ldIm2 => .ldIl2
  | .ldIl2 => .ldVm2
  | .ldVm2 => .ldVl2
  | .ldVl2 => .adj2
  | .adj2 => .wait
  | .wait => .ldIm1

/-! ## The RUN gate and the taking of an interrupt -/

/-- With RUN = 0 an event changes nothing and is not remembered (R134, R273, D14); with RUN = 1 it has its effect. -/
def whenRunning (s : State) (effect : State → State) : Host.Outcome State Fault Refusal :=
  if s.run then .next (effect s) else .next s

/-- Taking an interrupt and returning from it, the one shared operation of the three handlers (R271). A disabled source's event
is dropped (R272, R273). Entry saves nothing and changes nothing but what the handler writes (R277); the handler runs to
completion as one atomic operation (R275); return restores nothing, so the main loop goes on at the same LPH (R278). There is
no vector, no cause and no saved program counter (R270, R277). -/
def takeInterrupt (s : State) (handler : State → State) : Host.Outcome State Fault Refusal :=
  whenRunning s handler

/-- The tick action (R185): PULSE saturating increment. TICK runs it (R185), and a CLK that overflows timer 1 (R154). -/
def tickAction (s : State) : State := { s with pulse := satInc s.pulse }

/-! ## The local data space (R60 to R67): a view of the registers -/

/-- CTRL (R21): RUN in bit 0, bits 7:1 hardwired 0. -/
def ctrlByte (s : State) : Byte := (0 : BitVec 7) ++ BitVec.ofBool s.run

/-- LPH as a byte (R61): the phase number in bits 3:0, bits 7:4 zero. -/
def lphByte (s : State) : Byte := (0 : BitVec 4) ++ BitVec.ofNat 4 (phaseNumber s.lph)

/-- SCTL (R33): CONV in bit 7, bits 6:2 hardwired 0, CH in bits 1:0. -/
def sctlByte (s : State) : Byte := (BitVec.ofBool s.conv ++ (0 : BitVec 5)) ++ BitVec.ofNat 2 s.ch.val

/-- The 48 bytes of the local data space in address order, 0x00 to 0x2F (R61's table). -/
def image (s : State) : List Byte :=
  [ctrlByte s, lphByte s,
   hiByte s.per1, loByte s.per1, hiByte s.per2, loByte s.per2,
   hiByte s.cnt1, loByte s.cnt1, hiByte s.cnt2, loByte s.cnt2,
   hiByte s.duty1, loByte s.duty1, hiByte s.duty2, loByte s.duty2,
   s.pulse, s.ecnt, s.byte, s.crc, sctlByte s, 0]
  ++ s.smp.toList ++ s.sp.toList ++ s.cmd.toList
  ++ [s.aIm, s.aIl, s.aVm, s.aVl, 0, 0, 0, 0]

/-- The size of the local data space (R60). -/
def dataSpaceSize : Nat := 48

/-- The byte at a local address (R61); reserved locations and unused bits read 0 (R66). Outside 0x00..0x2F there is no byte:
`memRead1` refuses there, and this view is 0. -/
def byteAt (s : State) (a : Nat) : Byte := (image s).getD a 0

/-- MemRead(a, 1) (R15, R63): refused above 0x2F. No read has a side effect (R65). -/
def memRead1 (s : State) (a : Nat) : Except Refusal Byte :=
  if a < dataSpaceSize then .ok (byteAt s a) else .error (.outsideDataSpace a)

/-- MemRead(a, 2) (R15, R62, R63): the high byte at the even address, the low byte at the next; refused at an odd address and
above 0x2F. -/
def memRead2 (s : State) (a : Nat) : Except Refusal Word :=
  if a < dataSpaceSize then
    if a % 2 = 1 then .error (.misalignedPair a) else .ok (pair (byteAt s a) (byteAt s (a + 1)))
  else .error (.outsideDataSpace a)

/-- A plain store of one byte into a register or half a register below 0x14 (R61): unused bits and the reserved 0x13 ignore the
write (R61, R66); a value LPH cannot hold is refused (R34, U18). -/
def storeRegister (s : State) (a : Nat) (v : Byte) : Except Refusal State :=
  match a with
  | 0x00 => .ok { s with run := v.getLsbD 0 }
  | 0x01 =>
    match phaseOfNumber (v.extractLsb' 0 4).toNat with
    | some p => .ok { s with lph := p }
    | none => .error (.phaseNotRepresentable v)
  | 0x02 => .ok { s with per1 := pair v (loByte s.per1) }
  | 0x03 => .ok { s with per1 := pair (hiByte s.per1) v }
  | 0x04 => .ok { s with per2 := pair v (loByte s.per2) }
  | 0x05 => .ok { s with per2 := pair (hiByte s.per2) v }
  | 0x06 => .ok { s with cnt1 := pair v (loByte s.cnt1) }
  | 0x07 => .ok { s with cnt1 := pair (hiByte s.cnt1) v }
  | 0x08 => .ok { s with cnt2 := pair v (loByte s.cnt2) }
  | 0x09 => .ok { s with cnt2 := pair (hiByte s.cnt2) v }
  | 0x0A => .ok { s with duty1 := pair v (loByte s.duty1) }
  | 0x0B => .ok { s with duty1 := pair (hiByte s.duty1) v }
  | 0x0C => .ok { s with duty2 := pair v (loByte s.duty2) }
  | 0x0D => .ok { s with duty2 := pair (hiByte s.duty2) v }
  | 0x0E => .ok { s with pulse := v }
  | 0x0F => .ok { s with ecnt := v }
  | 0x10 => .ok { s with byte := v }
  | 0x11 => .ok { s with crc := v }
  | 0x12 => .ok { s with ch := ⟨v.toNat % Config.nsamp, Nat.mod_lt _ (by decide)⟩, conv := v.getLsbD 7 }
  | _ => .ok s

/-- A plain store of one byte into SMP, SP, CMD, a latch or the reserved 0x2C..0x2F, from 0x14 on (R61, R66). -/
def storeArray (s : State) (a : Nat) (v : Byte) : State :=
  if a < 0x18 then { s with smp := s.smp.setIfInBounds (a - 0x14) v }
  else if a < 0x20 then { s with sp := s.sp.setIfInBounds (a - 0x18) v }
  else if a < 0x28 then { s with cmd := s.cmd.setIfInBounds (a - 0x20) v }
  else if a = 0x28 then { s with aIm := v }
  else if a = 0x29 then { s with aIl := v }
  else if a = 0x2A then { s with aVm := v }
  else if a = 0x2B then { s with aVl := v }
  else s

/-- MemWrite(a, 1, v) (R15, R63, R65): a plain store, refused above 0x2F. -/
def memWrite1 (s : State) (a : Nat) (v : Byte) : Except Refusal State :=
  if a < dataSpaceSize then
    if a < 0x14 then storeRegister s a v else .ok (storeArray s a v)
  else .error (.outsideDataSpace a)

/-- MemWrite(a, 2, v) (R15, R62, R63): the high byte at the even address, the low byte at the next, both or neither. -/
def memWrite2 (s : State) (a : Nat) (v : Word) : Except Refusal State :=
  if a < dataSpaceSize then
    if a % 2 = 1 then .error (.misalignedPair a)
    else
      match memWrite1 s a (hiByte v) with
      | .ok s' => memWrite1 s' (a + 1) (loByte v)
      | .error r => .error r
  else .error (.outsideDataSpace a)

/-- A read through the observation port (R67): any of the 48 bytes, exactly as it stands, between two operations. -/
def observe (s : State) (a : Nat) : Except Refusal Byte := memRead1 s a

/-- A write through the observation port: refused at every address (R67, U4). -/
def observationWrite (_ : State) (a : Nat) (_ : Byte) : Except Refusal State :=
  .error (.observationPortReadOnly a)

/-- Which bits of the byte at an address are implemented (R61): one bit of CTRL, four of LPH, three of SCTL, none of a reserved
location, eight of any other. -/
def implementedBits (a : Nat) : Byte :=
  if a = 0x00 then 0x01
  else if a = 0x01 then 0x0F
  else if a = 0x12 then 0x83
  else if a = 0x13 then 0
  else if a < 0x2C then 0xFF
  else 0

/-- The addresses at which something is implemented: all but the reserved 0x13 and 0x2C to 0x2F, which nothing writes (R66). -/
def implementedAddrs : List Nat := (List.range dataSpaceSize).filter (fun a => decide (implementedBits a ≠ 0))

/-! ## The data space as a canonical list of cells -/

/-- What a location that the list does not name reads as (log 17). -/
def unlistedByte : Byte := 0

/-- The cell of one address, none where it holds what an unlisted address reads as. -/
def cellAt (s : State) (a : Nat) : Option Host.Cell :=
  if byteAt s a = unlistedByte then none else some (a, byteAt s a)

/-- The local data space as a list of (address, byte) pairs in the canonical form of `Memory.wf` (log 17). -/
def cells (s : State) : List Host.Cell := (List.range dataSpaceSize).filterMap (cellAt s)

/-- The canonical form: addresses strictly rising and inside the data space, no entry equal to what an unlisted address reads
as. -/
def Memory.wf (m : List Host.Cell) : Bool :=
  decide (m.Pairwise (fun c d => c.1 < d.1)) &&
  m.all (fun c => decide (c.1 < dataSpaceSize) && decide (c.2 ≠ unlistedByte))

/-- The byte a list of cells gives at an address. -/
def Memory.read (m : List Host.Cell) (a : Nat) : Byte :=
  match m.find? (fun c => c.1 == a) with
  | some c => c.2
  | none => unlistedByte

end Sys2Proof.Machine
end

