-- ==== Sys2Proof/Machine/Operands.lean ====
section
/-! DEFINITION. The operand forms: the 8-bit immediate of ADCDONE and where it comes from (R102, R177), the operand map of the control
loop (R248), and every effective address of R72, with the addresses each operation reads and writes. -/

namespace Sys2Proof.Machine

/-! ## The immediate operand -/

/-- The sample value (R177): of a result of `Config.adcBits` bits, the top SAMPLE_BITS = 8, truncated:
floor(res / 2^(ADC_BITS - 8)). -/
def sampleOf (res : BitVec Config.adcBits) : Sample :=
  BitVec.ofNat Config.sampleBits (res.toNat / 2 ^ (Config.adcBits - Config.sampleBits))

/-! ## The control loop's operand map (R248) -/

/-- The index of channel c's voltage in SMP and in SP: c - 1, for c = 1, 2 (R248). -/
def voltageIndex (c : Fin Config.nchan) : Fin Config.nsamp := ⟨c.val, Nat.lt_of_lt_of_le c.isLt (by decide)⟩

/-- The index of channel c's current in SMP and in SP: c + 1, for c = 1, 2 (R248). -/
def currentIndex (c : Fin Config.nchan) : Fin Config.nsamp := ⟨c.val + Config.nchan, Nat.add_lt_add_right c.isLt Config.nchan⟩

/-- SMP[i]: one atomic byte read (R64(a)). -/
def readSample (s : State) (i : Fin Config.nsamp) : Sample := s.smp[i]

/-- SP[i] for the control loop: one atomic byte read of SP[0..3] (R64(a), R64(c)); SP[4..7] are read by no phase (R248). -/
def readSetpoint (s : State) (i : Fin Config.nsamp) : Byte := s.sp[i.val]

/-! ## Effective addresses (R61, R72) -/

/-- 0x14 + i (R72). -/
def smpAddr (i : Nat) : Nat := 0x14 + i
/-- 0x18 + i (R72). -/
def spAddr (i : Nat) : Nat := 0x18 + i
/-- 0x20 + k (R72). -/
def cmdAddr (k : Nat) : Nat := 0x20 + k
/-- k = ((ECNT + 1) div 16) - 1, of the edge count after the resync clear (R72, R202). -/
def byteIndex (ecnt : Byte) : Nat := (ecnt.toNat + 1) / Config.byteEdges - 1

/-- CTRL. -/
def ctrlAddr : Nat := 0x00
/-- LPH. -/
def lphAddr : Nat := 0x01
/-- PULSE. -/
def pulseAddr : Nat := 0x0E
/-- ECNT. -/
def ecntAddr : Nat := 0x0F
/-- BYTE. -/
def byteAddr : Nat := 0x10
/-- CRC. -/
def crcAddr : Nat := 0x11
/-- SCTL. -/
def sctlAddr : Nat := 0x12
/-- DUTY1, DUTY2: the high byte's address (R72). -/
def dutyAddr (c : Fin Config.nchan) : Nat := 0x0A + 2 * c.val
/-- A_IM. -/
def aImAddr : Nat := 0x28
/-- A_IL. -/
def aIlAddr : Nat := 0x29
/-- A_VM. -/
def aVmAddr : Nat := 0x2A
/-- A_VL. -/
def aVlAddr : Nat := 0x2B

/-- The two bytes of a 16-bit register at an even address (R62). -/
def pairAddrs (a : Nat) : List Nat := [a, a + 1]

/-- SP[0..7] (R61). -/
def spAddrs : List Nat := (List.range Config.frameBytes).map spAddr
/-- CMD[0..7] (R61). -/
def cmdAddrs : List Nat := (List.range Config.frameBytes).map cmdAddr
/-- SMP[0..3] (R61). -/
def smpAddrs : List Nat := (List.range Config.nsamp).map smpAddr

end Sys2Proof.Machine
end

