-- ==== Sys2Proof/Machine/Flags.lean ====
section
/-! DEFINITION. The conditions of R36. The block has no flag register: each is a function of the state, computed inside one
operation and not stored. Comparisons are on mathematical integers (R14). -/

namespace Sys2Proof.Machine

/-- resync: PULSE = 255 as the edge finds it (R198). -/
abbrev resync (p : Byte) : Prop := p = Config.sat

/-- data_edge: ECNT[0] = DATA_PARITY, ECNT taken after the resync clear (R199). -/
abbrev dataEdge (parity : Bool) (ecnt : Byte) : Prop := ecnt.getLsbD 0 = parity

/-- bit: 1 if the interval is below THRESH, else 0 (R93, R199). -/
def bitOf (p : Byte) : Bool := decide (p.toNat < Config.thresh)

/-- byte_done: (ECNT + 1) mod 16 = 0 (R202). -/
abbrev byteDone (ecnt : Byte) : Prop := (ecnt.toNat + 1) % Config.byteEdges = 0

/-- frame_done: ECNT + 1 = 128 (R204). -/
abbrev frameDone (ecnt : Byte) : Prop := ecnt.toNat + 1 = Config.frameEdges

/-- frame_valid: CRC = 0 after the eighth byte is folded in (R205). -/
abbrev frameValid (crc : Byte) : Prop := crc = 0

/-- over: A_IM > A_IL or A_VM > A_VL (R245). -/
abbrev overLimit (im il vm vl : Byte) : Prop := il.toNat < im.toNat ∨ vl.toNat < vm.toNat

/-- under: A_IM + HYST_I < A_IL and A_VM + HYST_V < A_VL, the sums not reduced (R246, D21, log 15). -/
abbrev underLimits (im il vm vl : Byte) : Prop :=
  im.toNat + Config.hystI < il.toNat ∧ vm.toNat + Config.hystV < vl.toNat

/-- wrap1: CNT1 + 1 >= PER1 (R154). -/
abbrev wraps (per cnt : TimerWord) : Prop := per.toNat ≤ cnt.toNat + 1

end Sys2Proof.Machine
end

