-- ==== Sys2Proof/Machine/Configurator.lean ====
section
/-! DEFINITION. The Peripheral Configurator and the system operations: RESET, INIT, IDLE (40_configurator.md). -/

namespace Sys2Proof.Machine

/-- What INIT writes (R131, D26): periods, counters, duties, the sampler's first arming, the loop's phase, RUN. PULSE, the decode
state, SP, SMP and the latches keep their values. -/
def configure (s : State) : State :=
  { s with
    per1 := Config.period
    per2 := Config.period
    cnt1 := 0
    cnt2 := 0
    duty1 := 0
    duty2 := 0
    ch := 0
    conv := true
    lph := .ldIm1
    run := true }

/-- The whole block to R40's values (R130); the stimulus is the environment's and stays (log 2). -/
def resetBlock (s : State) : State := { State.reset with stim := s.stim, pos := s.pos }

/-- IDLE (R132): the state after equals the state before, in every state. -/
def execIdle (s : State) : Host.Outcome State Fault Refusal := .next s

/-- RESET (R130): accepted in every state, overriding everything. -/
def execReset (s : State) : Host.Outcome State Fault Refusal := .next (resetBlock s)

/-- INIT (R131); refused when RUN = 1 (R133, D15, log 8). -/
def execInit (s : State) : Host.Outcome State Fault Refusal :=
  if s.run then .refused .initWhileRunning else .next (configure s)

end Sys2Proof.Machine
end

