-- ==== Sys2Proof/Machine/ControlLoop.lean ====
section
/-! DEFINITION. The hysteresis control loop: LSTEP, one of eleven phases (45_control_loop.md). Each setpoint byte is read by an
operation of its own, so that a publish can fall between any two (R253, R305). -/

namespace Sys2Proof.Machine

/-- The control law (R244 to R247), for a given PERIOD. -/
def adjust (period d : TimerWord) (im il vm vl : Byte) : TimerWord :=
  if overLimit im il vm vl then dec0 d
  else if underLimits im il vm vl then incP period d
  else d

/-- LD_IMc (R232, R237): A_IM <- SMP[c + 1]. -/
def loadIm (c : Fin Config.nchan) (s : State) : State := { s with aIm := readSample s (currentIndex c) }

/-- LD_ILc (R233, R238): A_IL <- SP[c + 1]. -/
def loadIl (c : Fin Config.nchan) (s : State) : State := { s with aIl := readSetpoint s (currentIndex c) }

/-- LD_VMc (R234, R239): A_VM <- SMP[c - 1]. -/
def loadVm (c : Fin Config.nchan) (s : State) : State := { s with aVm := readSample s (voltageIndex c) }

/-- LD_VLc (R235, R240): A_VL <- SP[c - 1]. -/
def loadVl (c : Fin Config.nchan) (s : State) : State := { s with aVl := readSetpoint s (voltageIndex c) }

/-- ADJ1 (R236): DUTY1 <- adjust(DUTY1, latches). -/
def adjustDuty1 (s : State) : State :=
  { s with duty1 := adjust Config.period s.duty1 s.aIm s.aIl s.aVm s.aVl }

/-- ADJ2 (R241): DUTY2 <- adjust(DUTY2, latches). -/
def adjustDuty2 (s : State) : State :=
  { s with duty2 := adjust Config.period s.duty2 s.aIm s.aIl s.aVm s.aVl }

/-- The action of a phase (R231's table, R232 to R242). -/
def phaseAction (p : Phase) (s : State) : State :=
  match p with
  | .ldIm1 => loadIm 0 s
  | .ldIl1 => loadIl 0 s
  | .ldVm1 => loadVm 0 s
  | .ldVl1 => loadVl 0 s
  | .adj1 => adjustDuty1 s
  | .ldIm2 => loadIm 1 s
  | .ldIl2 => loadIl 1 s
  | .ldVm2 => loadVm 1 s
  | .ldVl2 => loadVl 1 s
  | .adj2 => adjustDuty2 s
  | .wait => s

/-- LPH <- (LPH + 1) mod 11 (R243). -/
def advancePhase (s : State) : State := { s with lph := nextPhase s.lph }

/-- One step of the loop (R231): the action of phase LPH, then the phase advance. -/
def loopAction (s : State) : State := advancePhase (phaseAction s.lph s)

/-- LSTEP (R231, R251). -/
def execLstep (s : State) : Host.Outcome State Fault Refusal := whenRunning s loopAction

end Sys2Proof.Machine
end

