-- ==== Sys2Proof/Machine/FrameDecoder.lean ====
section
/-! DEFINITION. The edge-timing command frame decoder: EDGE (44_frame_decoder.md R195 to R214). R197's pseudocode step by step;
each step sees the effect of the steps before it. The parity of a data edge and the clearing of the checksum at frame end are
arguments (C1, C2, U10, U11), which EDGE takes from Config. -/

namespace Sys2Proof.Machine

/-- Step 1 (R198): on an edge that finds PULSE = 255, ECNT and CRC are cleared. -/
def edgeResync (p : Byte) (s : State) : State :=
  if resync p then { s with ecnt := 0, crc := 0 } else s

/-- Steps 2 and 4 (R199, R200): on a data edge the interval is classified and the bit shifted into BYTE. -/
def edgeShift (parity : Bool) (p : Byte) (s : State) : State :=
  if dataEdge parity s.ecnt then { s with byte := shiftIn s.byte (bitOf p) } else s

/-- Step 3 (R201): the interval timer restarts, on every edge. -/
def edgeRestart (s : State) : State := { s with pulse := 0 }

/-- Step 5 (R202, R203): on every 16th edge the byte is staged and folded into the checksum. CMD has eight elements; an index above
7, which only an unreachable ECNT gives, writes none (log 16). -/
def edgeByte (s : State) : State :=
  if byteDone s.ecnt then
    { s with cmd := s.cmd.setIfInBounds (byteIndex s.ecnt) s.byte, crc := s.crc ^^^ s.byte }
  else s

/-- Step 6 (R204 to R207): at 128 edges publish if the checksum is 0, clear it (if the parameter says so) and return to edge 0;
otherwise count the edge. -/
def edgeFrame (crcClear : Bool) (s : State) : State :=
  if frameDone s.ecnt then
    { s with
      sp := if frameValid s.crc then s.cmd else s.sp
      crc := if crcClear then 0 else s.crc
      ecnt := 0 }
  else { s with ecnt := BitVec.ofNat 8 (s.ecnt.toNat + 1) }

/-- The whole EDGE action (R197), for either reading of C1 and C2. -/
def edgeActionWith (parity crcClear : Bool) (s : State) : State :=
  edgeFrame crcClear (edgeByte (edgeRestart (edgeShift parity s.pulse (edgeResync s.pulse s))))

/-- The EDGE action of this block: DATA_PARITY and CRC_CLEAR_AT_FRAME_END as the spec resolves them (logs 10 and 11). -/
def edgeAction (s : State) : State := edgeActionWith Config.dataParity Config.crcClearAtFrameEnd s

/-- EDGE (R197, R213): the edge handler. -/
def execEdge (s : State) : Host.Outcome State Fault Refusal := takeInterrupt s edgeAction

/-- The classes of the EDGE transition (R208): not stored, read off the interval and the edge count. -/
inductive EdgeClass where
  | idleResync
  | accumulatingBit
  | byteComplete
  | frameComplete
deriving DecidableEq, Repr

/-- The class of the edge that would be taken now (R208's table). -/
def edgeClass (s : State) : EdgeClass :=
  if resync s.pulse then .idleResync
  else if frameDone s.ecnt then .frameComplete
  else if byteDone s.ecnt then .byteComplete
  else .accumulatingBit

end Sys2Proof.Machine
end

