-- ==== Sys2Proof/Machine/Pwm.lean ====
section
/-! DEFINITION. The dual-channel PWM generator: CLK (41_pwm_generator.md). Its outputs are in Ports.lean. -/

namespace Sys2Proof.Machine

/-- Both counters of the two timers count once, each against its own period (R150, R151, D4). -/
def countTimers (s : State) : State :=
  { s with cnt1 := countUp s.per1 s.cnt1, cnt2 := countUp s.per2 s.cnt2 }

/-- One timer-clock period (R151): wrap1 is taken before the counters move; when timer 1 wraps, the tick action is the last part
of the same operation (R154, D6, log 12). -/
def clkAction (s : State) : State :=
  if wraps s.per1 s.cnt1 then tickAction (countTimers s) else countTimers s

/-- CLK (R151, R134). The timers are not a handler: RUN starts them. -/
def execClk (s : State) : Host.Outcome State Fault Refusal := whenRunning s clkAction

end Sys2Proof.Machine
end

