-- ==== Sys2Proof/Machine/RefCounter.lean ====
section
/-! DEFINITION. The pulse-width reference counter: TICK (43_reference_counter.md). -/

namespace Sys2Proof.Machine

/-- TICK (R185, R186): the reference-timer overflow handler; armed exactly while RUN = 1. -/
def execTick (s : State) : Host.Outcome State Fault Refusal := takeInterrupt s tickAction

end Sys2Proof.Machine
end

