-- ==== Sys2Proof/Machine/Sampler.lean ====
section
/-! DEFINITION. The analog feedback sampler: ADCDONE (42_feedback_sampler.md). There is no timeout on a conversion (R175). -/

namespace Sys2Proof.Machine

/-- The completion handler (R171): the result into the slot CH names before the advance, CH + 1 modulo 4, the next one-shot
conversion armed. With nothing converting it changes nothing (R176, D27, log 22). -/
def sampleAction (r : Sample) (s : State) : State :=
  if s.conv then { s with smp := s.smp.set s.ch.val r, ch := s.ch + 1, conv := true } else s

/-- ADCDONE r (R171, R176): the conversion-complete handler. -/
def execAdcdone (r : Sample) (s : State) : Host.Outcome State Fault Refusal := takeInterrupt s (sampleAction r)

end Sys2Proof.Machine
end

