-- ==== Sys2Proof/Machine/Dispatch.lean ====
section
/-! DEFINITION. One arm per operation (30_encoding.md R100), each one direct call of its meaning. -/

namespace Sys2Proof.Machine

def exec (i : Instr) (s : State) : Host.Outcome State Fault Refusal :=
  match i with
  | .idle => Sys2Proof.Machine.execIdle s
  | .reset => Sys2Proof.Machine.execReset s
  | .init => Sys2Proof.Machine.execInit s
  | .clk => Sys2Proof.Machine.execClk s
  | .tick => Sys2Proof.Machine.execTick s
  | .edge => Sys2Proof.Machine.execEdge s
  | .adcdone r => Sys2Proof.Machine.execAdcdone r s
  | .lstep => Sys2Proof.Machine.execLstep s

end Sys2Proof.Machine
end

