-- ==== Sys2Proof/Machine/Fetch.lean ====
section
/-! DEFINITION. Taking the next event word from the stimulus (30_encoding.md R101, R104). The block itself fetches nothing (R71): the
stream stands for the environment's choice of the next operation (R280, log 2). -/

namespace Sys2Proof.Machine

/-- What a rejection of the stream decoder becomes, with the position it names (R104, log 4). -/
def refusalAt (pos : Nat) : DecodeError → Refusal
  | .reservedOp w => .reservedWord pos w
  | .nonzeroZ w => .reservedWord pos w
  | .operandOnNFormat w => .reservedWord pos w
  | .truncated b => .truncatedWord pos b
  | .endOfStream => .endOfStimulus pos

/-- The state with one event word taken: the bytes that follow it, and one more word counted. -/
def takeWord (s : State) (rest : List Byte) : State := { s with stim := rest, pos := s.pos + 1 }

/-- The next operation of the stimulus and the state once its word is taken, or why there is none. -/
def fetch (s : State) : Except Refusal (Instr × State) :=
  match decode s.stim with
  | .ok (i, rest) => .ok (i, takeWord s rest)
  | .error e => .error (refusalAt s.pos e)

/-- The bytes of an instruction word given as a number, bit 0 its least significant, every bit at or above nbits 0: high byte
first (R101). -/
def wordBytes (nbits w : Nat) : List Byte :=
  let word : Word := BitVec.ofNat 16 (w % 2 ^ nbits)
  [hiByte word, loByte word]

/-- The stimulus with its first event word replaced (log 5). -/
def replaceFirstWord (stim : List Byte) (nbits w : Nat) : List Byte := wordBytes nbits w ++ stim.drop 2

end Sys2Proof.Machine
end

