-- ==== Sys2Proof/Machine/Step.lean ====
section
/-! DEFINITION. One step: the next operation of the stimulus, applied to the block (00_scope.md R11, 20_memory.md R68). -/

namespace Sys2Proof.Machine

/-- One step: take the next event word and apply its operation; refused where the stream gives none (R104, R254). -/
def step (s : State) : Host.Outcome State Fault Refusal :=
  match fetch s with
  | .ok (i, s') => exec i s'
  | .error r => .refused r

/-- s with the given instruction word as the first event word of its stimulus, where step takes its next operation (log 5). -/
def State.withFetchWord (s : State) (nbits w : Nat) : State :=
  { s with stim := replaceFirstWord s.stim nbits w }

end Sys2Proof.Machine
end

