-- ==== Sys2Proof/Machine/Access.lean ====
section
/-! DEFINITION. Which bytes of the local data space each operation stores to and reads (10_state.md R38, 20_memory.md R72), computed
from the state with the expressions the meanings use. The claims use these functions; no operation does. -/

namespace Sys2Proof.Machine

/-- The edge count as an edge works with it: 0 on a resync edge (R198). -/
def edgeCount (s : State) : Byte := (edgeResync s.pulse s).ecnt

/-- The state inside an EDGE when step 6 begins (R197): after classification, restart and byte completion. -/
def beforeFrameStep (s : State) : State :=
  edgeByte (edgeRestart (edgeShift Config.dataParity s.pulse (edgeResync s.pulse s)))

/-- Would an EDGE taken now publish? (R205): the frame completes and its checksum, the eighth byte folded in, is 0. -/
def publishes (s : State) : Bool :=
  s.run && decide (frameDone (beforeFrameStep s).ecnt) && decide (frameValid (beforeFrameStep s).crc)

/-- CMD[k] for the byte index k, no address for an index CMD does not have (R72, log 16). -/
def cmdStore (k : Nat) : List Nat := if k < Config.frameBytes then [cmdAddr k] else []

/-- What a running EDGE stores to (R72, R198): PULSE and ECNT; CRC on a resync; BYTE on a data edge; CMD[k] and CRC on a byte end; CRC at a
frame end (R207); SP on a publish. -/
def edgeStores (s : State) : List Nat :=
  [pulseAddr, ecntAddr]
  ++ (if resync s.pulse then [crcAddr] else [])
  ++ (if dataEdge Config.dataParity (edgeCount s) then [byteAddr] else [])
  ++ (if byteDone (edgeCount s) then crcAddr :: cmdStore (byteIndex (edgeCount s)) else [])
  ++ (if publishes s then spAddrs else [])

/-- What a running LSTEP of a phase stores to besides LPH (R72). -/
def phaseStores : Phase → List Nat
  | .ldIm1 => [aImAddr]
  | .ldIl1 => [aIlAddr]
  | .ldVm1 => [aVmAddr]
  | .ldVl1 => [aVlAddr]
  | .adj1 => pairAddrs (dutyAddr 0)
  | .ldIm2 => [aImAddr]
  | .ldIl2 => [aIlAddr]
  | .ldVm2 => [aVmAddr]
  | .ldVl2 => [aVlAddr]
  | .adj2 => pairAddrs (dutyAddr 1)
  | .wait => []

/-- What a running LSTEP of a phase reads besides CTRL and LPH (R72). -/
def phaseReads : Phase → List Nat
  | .ldIm1 => [smpAddr 2]
  | .ldIl1 => [spAddr 2]
  | .ldVm1 => [smpAddr 0]
  | .ldVl1 => [spAddr 0]
  | .adj1 => pairAddrs (dutyAddr 0) ++ [aImAddr, aIlAddr, aVmAddr, aVlAddr]
  | .ldIm2 => [smpAddr 3]
  | .ldIl2 => [spAddr 3]
  | .ldVm2 => [smpAddr 1]
  | .ldVl2 => [spAddr 1]
  | .adj2 => pairAddrs (dutyAddr 1) ++ [aImAddr, aIlAddr, aVmAddr, aVlAddr]
  | .wait => []

/-- The six 16-bit registers' bytes, PER1 to DUTY2 (R61). -/
def pwmAddrs : List Nat := (List.range 12).map (fun k => 0x02 + k)

/-- PER1, PER2, CNT1, CNT2 (R61). -/
def timerAddrs : List Nat := (List.range 8).map (fun k => 0x02 + k)

/-- CNT1, CNT2 (R61). -/
def counterAddrs : List Nat := (List.range 4).map (fun k => 0x06 + k)

/-- Every address an operation stores to, in this state (R72, R38); an operation without effect (R134, R176) stores to none, and none
stores to a reserved location (R66). -/
def storeAddrs (i : Instr) (s : State) : List Nat :=
  match i with
  | .idle => []
  | .reset => implementedAddrs
  | .init => if s.run then [] else [ctrlAddr, lphAddr, sctlAddr] ++ pwmAddrs
  | .clk => if s.run then counterAddrs ++ (if wraps s.per1 s.cnt1 then [pulseAddr] else []) else []
  | .tick => if s.run then [pulseAddr] else []
  | .edge => if s.run then edgeStores s else []
  | .adcdone _ => if s.run && s.conv then [smpAddr s.ch.val, sctlAddr] else []
  | .lstep => if s.run then lphAddr :: phaseStores s.lph else []

/-- Every address an operation reads, in this state (R72, R38): CTRL always but by RESET and IDLE. -/
def readAddrs (i : Instr) (s : State) : List Nat :=
  match i with
  | .idle => []
  | .reset => []
  | .init => [ctrlAddr]
  | .clk => ctrlAddr :: timerAddrs ++ (if wraps s.per1 s.cnt1 then [pulseAddr] else [])
  | .tick => [ctrlAddr, pulseAddr]
  | .edge => [ctrlAddr, pulseAddr, ecntAddr, byteAddr, crcAddr] ++ (if publishes s then cmdAddrs else [])
  | .adcdone _ => [ctrlAddr, sctlAddr]
  | .lstep => [ctrlAddr, lphAddr] ++ phaseReads s.lph

end Sys2Proof.Machine
end

