-- ==== Sys2Proof/Machine/Ports.lean ====
section
/-! DEFINITION. The ports of the block (10_state.md R41): what the input ports cause, and the outputs as functions of the state (R25, R152,
R172). No output is state. -/

namespace Sys2Proof.Machine

/-- What the outside world can do to the block (R41). -/
inductive PortEvent where
  /-- `rst` asserted. -/
  | rst
  /-- One active edge of `clk_tim`. -/
  | clkTim
  /-- A level change of `rx`, in either direction. -/
  | rxChange (rising : Bool)
  /-- `adc_done` asserted with the converter's left-aligned result. -/
  | adcDone (res : BitVec Config.adcBits)
deriving DecidableEq, Repr

/-- The operation an event at a port is (R41, R196: the direction of a level change is no input; R177: the sampler takes the top
eight bits). -/
def portOperation : PortEvent → Instr
  | .rst => .reset
  | .clkTim => .clk
  | .rxChange _ => .edge
  | .adcDone res => .adcdone (sampleOf res)

/-- OUTn (R25, R152): active when RUN = 1 and CNTn < DUTYn. Inactive with RUN = 0 is D20's. -/
def outputOf (run : Bool) (cnt duty : TimerWord) : Bool := run && decide (cnt.toNat < duty.toNat)

/-- OUT1, the port pwm1 (R41, R152, R156): a function of RUN, CNT1 and DUTY1. -/
def out1 (s : State) : Bool := outputOf s.run s.cnt1 s.duty1

/-- OUT2, the port pwm2 (R41, R152, R156). -/
def out2 (s : State) : Bool := outputOf s.run s.cnt2 s.duty2

/-- The electrical level of a PWM pin (R152, D20): the level of an active output is OPEN (log 20). -/
def pinLevel (active : Bool) : Bool := if active then Config.outActiveLevel else !Config.outActiveLevel

/-- adc_sel, the multiplexer select (R41's port table, R172): CHANLIST[CH], whatever RUN is. -/
def adcSel (s : State) : Nat := Config.chanList s.ch

/-- adc_start (R41): does it pulse in this operation from this state? When INIT arms the first conversion, and when an ADCDONE arms the
next (R131, R171). -/
def adcStart (i : Instr) (s : State) : Bool :=
  match i with
  | .idle => false
  | .reset => false
  | .init => !s.run
  | .clk => false
  | .tick => false
  | .edge => false
  | .adcdone _ => s.run && s.conv
  | .lstep => false

/-- Over n timer-clock periods from s, in how many of them OUT1 is active, sampled before each (R153). -/
def activeClocks1 : Nat → State → Nat
  | 0, _ => 0
  | n + 1, s => (if out1 s then 1 else 0) + activeClocks1 n (clkAction s)

/-- The same for OUT2 (R153). -/
def activeClocks2 : Nat → State → Nat
  | 0, _ => 0
  | n + 1, s => (if out2 s then 1 else 0) + activeClocks2 n (clkAction s)

end Sys2Proof.Machine
end

