-- ==== Sys2Proof/Machine/Interrupts.lean ====
section
/-! DEFINITION. Agents, contexts, interrupt sources and their order, and the admitted executions (00_scope.md R12; 60_exceptions.md R271 to R280,
R284). None of it is state: no pending bit, no nesting depth, no saved register (R37, R273, R277, R279). -/

namespace Sys2Proof.Machine

/-- The things that take a step (R12). -/
inductive Agent where
  | environment
  | configurator
  | pwmTimers
  | referenceCounter
  | decoder
  | sampler
  | controlLoop
deriving DecidableEq, Repr

/-- The agent of an operation (R12, R100); none for IDLE. -/
def agentOf : Instr → Option Agent
  | .idle => none
  | .reset => some .environment
  | .init => some .configurator
  | .clk => some .pwmTimers
  | .tick => some .referenceCounter
  | .edge => some .decoder
  | .adcdone _ => some .sampler
  | .lstep => some .controlLoop

/-- The two execution contexts (R284); neither is more privileged. -/
inductive Context where
  | main
  | interrupt
deriving DecidableEq, Repr

/-- The context an operation runs in (R284); none for what is not software's: the hardware timers, the environment, nothing. -/
def contextOf : Instr → Option Context
  | .idle => none
  | .reset => none
  | .init => some .main
  | .clk => none
  | .tick => some .interrupt
  | .edge => some .interrupt
  | .adcdone _ => some .interrupt
  | .lstep => some .main

/-- The three interrupt sources (R271). -/
inductive Source where
  | referenceTick
  | lineEdge
  | conversionComplete
deriving DecidableEq, Repr

/-- The source whose handler an operation is (R271). -/
def sourceOf : Instr → Option Source
  | .idle => none
  | .reset => none
  | .init => none
  | .clk => none
  | .tick => some .referenceTick
  | .edge => some .lineEdge
  | .adcdone _ => some .conversionComplete
  | .lstep => none

/-- All three sources are enabled together, by RUN, and never masked after (R272, D14). -/
def sourceEnabled (s : State) (_ : Source) : Bool := s.run

/-- In a coincidence, may a's handler run before b's? (R274, R276): edge and tick in either order, both before the
conversion's, which is of equal or lower priority (log 13). -/
def mayPrecede (a b : Source) : Bool :=
  match a, b with
  | .referenceTick, _ => true
  | .lineEdge, _ => true
  | .conversionComplete, .conversionComplete => true
  | .conversionComplete, .referenceTick => false
  | .conversionComplete, .lineEdge => false

/-- Every order in which the handlers of simultaneous events may run (R276): with both a tick and an edge, two. -/
def coincidingOrders (tick edge : Bool) (done : Option Byte) : List (List Instr) :=
  let last : List Instr :=
    match done with
    | some r => [.adcdone r]
    | none => []
  match tick, edge with
  | true, true => [[.tick, .edge] ++ last, [.edge, .tick] ++ last]
  | true, false => [[.tick] ++ last]
  | false, true => [[.edge] ++ last]
  | false, false => [last]

/-- Admitted finite executions (R280, R302): any sequence, in any order, but that INIT comes only while the block is not running; `run` is
RUN before the first operation. -/
def admitted (run : Bool) : List Instr → Bool
  | [] => true
  | .idle :: ops => admitted run ops
  | .reset :: ops => admitted false ops
  | .init :: ops => !run && admitted true ops
  | .clk :: ops => admitted run ops
  | .tick :: ops => admitted run ops
  | .edge :: ops => admitted run ops
  | .adcdone _ :: ops => admitted run ops
  | .lstep :: ops => admitted run ops

/-- Runs operations one after another, each one atomic transition (R68), stopping at the first that has no next state. -/
def runOps : List Instr → State → Host.Outcome State Fault Refusal
  | [], s => .next s
  | i :: ops, s =>
    match exec i s with
    | .next t => runOps ops t
    | .fault r => .fault r
    | .refused r => .refused r

/-! ## Infinite executions (R280) -/

/-- The first n operations of an endless sequence: what a stimulus of State can hold of it (log 2). -/
def firstOps (ops : Nat → Instr) (n : Nat) : List Instr := (List.range n).map ops

/-- An endless sequence is admitted if every finite beginning of it is (R280): any order, RESET at any point, INIT only while the
block is not running; `run` is RUN before the first operation. -/
def AdmittedForever (run : Bool) (ops : Nat → Instr) : Prop := ∀ n, admitted run (firstOps ops n) = true

/-- An infinite execution from s (R280): a state before each operation of an endless sequence, each the next state of the one
before it. -/
def InfiniteExecution (s : State) (ops : Nat → Instr) (states : Nat → State) : Prop :=
  states 0 = s ∧ ∀ n, exec (ops n) (states n) = .next (states (n + 1))

end Sys2Proof.Machine
end

