-- ==== Sys2Proof/Machine/Wire.lean ====
section
/-! DEFINITION. The wire encoding of the command frame (30_encoding.md R91 to R99): bits, bytes, frames and the intervals between
edges, as functions apart from the machine. The decoder's operations (FrameDecoder.lean) never call them; the claims relate
the two. -/

namespace Sys2Proof.Machine

/-- The bits of a byte in the order they are sent: bit 7 first (R94). -/
def bitsOfByte (v : Byte) : List Bool :=
  [v.getLsbD 7, v.getLsbD 6, v.getLsbD 5, v.getLsbD 4, v.getLsbD 3, v.getLsbD 2, v.getLsbD 1, v.getLsbD 0]

/-- The number eight received bits stand for, the first of them of weight 2^7 (R94). -/
def byteOfBits (bits : List Bool) : Byte :=
  BitVec.ofNat 8 (bits.foldl (fun n b => 2 * n + b.toNat) 0)

/-- The 64 bits of a frame in the order they are sent: byte 0 first (R94, R95). -/
def bitsOfFrame (bytes : List Byte) : List Bool := bytes.flatMap bitsOfByte

/-- The bytes of a frame received as bits: eight bit cells a byte (R94, R95). -/
def bytesOfBits : Nat → List Bool → List Byte
  | 0, _ => []
  | n + 1, bits => byteOfBits (bits.take 8) :: bytesOfBits n (bits.drop 8)

/-- A frame is valid if and only if the XOR of its bytes is 0 (R96). -/
def checksumValid (bytes : List Byte) : Bool := decide (xorBytes bytes = 0)

/-- The eighth byte a transmitter may choose for its seven others (R96). -/
def checksumByte (first : List Byte) : Byte := xorBytes first

/-- The interval an edge reads after n ticks since the edge before it: n, saturated at 255 (R91, R107). -/
def intervalAfter (n : Nat) : Nat := min n Config.sat.toNat

/-- The bit an interval stands for (R93): 1 below THRESH. -/
def bitOfInterval (n : Nat) : Bool := decide (n < Config.thresh)

/-- A bit cell on the wire (R92): the gap in ticks before its opening edge, and its data interval. -/
structure WireCell where
  gap : Nat
  data : Nat
deriving DecidableEq, Repr

/-- Neither interval of the cell saturates the counter (R92, R97, R99). -/
def cellLive (c : WireCell) : Bool := decide (c.gap < Config.sat.toNat) && decide (c.data < Config.sat.toNat)

/-- The bits a list of cells carries: the data intervals only (R92, R93). -/
def bitsOfCells (cells : List WireCell) : List Bool := cells.map (fun c => bitOfInterval c.data)

/-- The cells of a list of bits: the first with gap g0, every other with the gap of the timing (R108, R109). -/
def cellsOfBits (g0 : Nat) (tm : CellTiming) : List Bool → List WireCell
  | [] => []
  | b :: bits => ⟨g0, if b then tm.d1 else tm.d0⟩ :: cellsOfBits tm.gap tm bits

end Sys2Proof.Machine
end

