-- ==== Sys2Proof/Machine/Stimulus.lean ====
section
/-! DEFINITION. The pseudo-operations of a stimulus (30_encoding.md R106 to R114), as the lists of operations they stand for. -/

namespace Sys2Proof.Machine

/-- A line repeated n times: `TICK *255` (R106). -/
def repeatOps (n : Nat) (ops : List Instr) : List Instr := (List.replicate n ops).flatten

/-- EDGEAFTER n (R107): n ticks, then an edge. -/
def edgeAfter (n : Nat) : List Instr := List.replicate n .tick ++ [.edge]

/-- The two edges of one bit cell (R92, R108). -/
def cellOps (c : WireCell) : List Instr := edgeAfter c.gap ++ edgeAfter c.data

/-- Bit cells one after another (R92). -/
def cellsOps (cells : List WireCell) : List Instr := cells.flatMap cellOps

/-- The intervals the vectors use (R108): g = 2, d1 = 2, d0 = 8. -/
def defaultTiming : CellTiming := ⟨2, 2, 8⟩

/-- SENDBIT b, g, d1, d0 (R108). -/
def sendBit (b : Bool) (tm : CellTiming) : List Instr :=
  edgeAfter tm.gap ++ edgeAfter (if b then tm.d1 else tm.d0)

/-- SENDBYTE v, g0 (R109): eight bit cells, bit 7 first, the first with gap g0. -/
def sendByte (tm : CellTiming) (v : Byte) (g0 : Nat) : List Instr := cellsOps (cellsOfBits g0 tm (bitsOfByte v))

/-- The bytes of a frame, the first with gap g0 (R110). -/
def sendBytes (tm : CellTiming) (g0 : Nat) : List Byte → List Instr
  | [] => []
  | v :: vs => sendByte tm v g0 ++ sendBytes tm tm.gap vs

/-- SENDFRAME (R110): the first gap is 255 ticks, so the first edge resynchronises. -/
def sendFrame (tm : CellTiming) (frame : Vector Byte Config.frameBytes) : List Instr := sendBytes tm Config.sat.toNat frame.toList

/-- SENDFRAME_NOGAP (R110): back to back with what came before. -/
def sendFrameNoGap (tm : CellTiming) (frame : Vector Byte Config.frameBytes) : List Instr := sendBytes tm tm.gap frame.toList

/-- LOOPITER (R111): one whole control-loop iteration from LPH = 0. -/
def loopIter : List Instr := List.replicate 11 .lstep

/-- ADCSCAN r0 r1 r2 r3 (R112). -/
def adcScan (r0 r1 r2 r3 : Byte) : List Instr := [.adcdone r0, .adcdone r1, .adcdone r2, .adcdone r3]

/-- PWMCYCLE (R113): PERIOD timer-clock periods. -/
def pwmCycle : List Instr := List.replicate Config.period.toNat .clk

/-- BOOT (R114, R302). -/
def boot : List Instr := [.reset, .init]

/-- A whole scan, then a whole loop iteration on it, for each list of four samples: the iterations R252 speaks of. -/
def regulate (scans : List (Vector Sample Config.nsamp)) : List Instr :=
  scans.flatMap (fun m => adcScan m[0] m[1] m[2] m[3] ++ loopIter)

end Sys2Proof.Machine
end

