-- ==== Sys2Proof/Safety.lean ====
section
/-! DEFINITION. What the claims are stated in: the invariants of R39, reachability, what it means that two states are the same state of the
block (R20), and the classes of stimuli and of pairs of operations that some rules speak of. -/

namespace Sys2Proof.Machine

/-- The invariants of R39, (a) to (g), and what R22 and R151 add: the periods are PERIOD from INIT on, and the two counters agree. (d) is
LPH's type. -/
structure Inv (s : State) : Prop where
  /-- R22: after INIT both periods are PERIOD; before it they are 0. -/
  per1_eq : s.per1 = if s.run then Config.period else 0
  per2_eq : s.per2 = if s.run then Config.period else 0
  /-- R39(a). -/
  duty1_le : s.duty1.toNat ≤ if s.run then Config.period.toNat else 0
  duty2_le : s.duty2.toNat ≤ if s.run then Config.period.toNat else 0
  /-- R39(b). -/
  cnt1_lt : s.run = true → s.cnt1.toNat < Config.period.toNat
  /-- R151: CNT1 = CNT2 in every reachable state. -/
  cnt2_eq : s.cnt2 = s.cnt1
  /-- R39(c). -/
  ecnt_le : s.ecnt.toNat ≤ 127
  /-- R39(e). -/
  sp_xor : xorBytes s.sp.toList = 0
  /-- R39(f). -/
  conv_eq : s.conv = s.run
  /-- R39(g): CRC is the XOR of the bytes of the current frame staged so far. -/
  crc_eq : s.crc = xorBytes (s.cmd.toList.take (s.ecnt.toNat / 16))

/-- The states that operations reach from RESET, whatever the stimulus (R280). -/
inductive Reachable : State → Prop where
  | reset (stim : List Byte) (pos : Nat) : Reachable { State.reset with stim := stim, pos := pos }
  | step (s t : State) (i : Instr) : Reachable s → exec i s = .next t → Reachable t

/-- The same state of the block (R20): every component of the tuple agrees. -/
def SameBlock (s t : State) : Prop := { s with stim := t.stim, pos := t.pos } = t

/-- The duty register of channel c = 1, 2 (R24). -/
def dutyOf (s : State) (c : Fin Config.nchan) : TimerWord := if c = 0 then s.duty1 else s.duty2

/-- The phase that adjusts channel c (R231). -/
def adjustPhase (c : Fin Config.nchan) : Phase := if c = 0 then .adj1 else .adj2

/-- A stimulus in which no conversion completes and the block is neither reset nor configured again (R175). -/
def noCompletion (ops : List Instr) : Bool :=
  ops.all (fun i =>
    match i with
    | .idle => true
    | .reset => false
    | .init => false
    | .clk => true
    | .tick => true
    | .edge => true
    | .adcdone _ => false
    | .lstep => true)

/-- Two operations of different agents that R281 lists as not commuting in this state: (a) an edge with a tick, or with a timer
clock that overflows timer 1; (b) a publishing edge with a setpoint read; (c) a completion with the read of the slot it
writes. The order of the two arguments does not matter. RESET and INIT are not in R281's pairs. -/
def conflicts (s : State) (i j : Instr) : Bool :=
  match i, j with
  | .edge, .tick => true
  | .edge, .clk => decide (wraps s.per1 s.cnt1)
  | .edge, .lstep => publishes s && (phaseReads s.lph).any (fun a => decide (a ∈ spAddrs))
  | .adcdone _, .lstep => decide (smpAddr s.ch.val ∈ phaseReads s.lph)
  | _, _ => false

/-- The operations of a running block: none of RESET, INIT (R280). -/
def isRunOp : Instr → Bool
  | .idle => true
  | .reset => false
  | .init => false
  | .clk => true
  | .tick => true
  | .edge => true
  | .adcdone _ => true
  | .lstep => true

/-- How many tick actions one operation does in a running block (R154, R185): TICK one, CLK one when it overflows timer 1. -/
def tickActionsOf (i : Instr) (s : State) : Nat :=
  match i with
  | .idle => 0
  | .reset => 0
  | .init => 0
  | .clk => if wraps s.per1 s.cnt1 then 1 else 0
  | .tick => 1
  | .edge => 0
  | .adcdone _ => 0
  | .lstep => 0

/-- How many tick actions a run of operations does from a running state (R187). -/
def tickActions : List Instr → State → Nat
  | [], _ => 0
  | i :: ops, s =>
    tickActionsOf i s +
      match exec i s with
      | .next t => tickActions ops t
      | .fault _ => 0
      | .refused _ => 0

end Sys2Proof.Machine
end

