-- ==== Sys2Proof/Certificates/Slice0/Obligations.lean ====
section
/-! DEFINITION. The statements for the provers. Each docstring names the rules of spec/ it formalises; where a clause rests on
one of the spec's own decisions (D<n>) or on an inference the spec marks as its own, it says so and the statement is
'derived'. A frame is written as an equation: the next state is the old one with only the named components replaced. -/

open Sys2Proof Sys2Proof.Machine

/-! ## Encodings -/

/-- R103's words, written out bit by bit, decode to the operations they stand for (the event word is the spec's own, D1). -/
def Obligations.ListedWordsDecode : Prop :=
  decodeWord 0b0000000000000000 = .ok .idle ∧
  decodeWord 0b0001000000000000 = .ok .reset ∧
  decodeWord 0b0010000000000000 = .ok .init ∧
  decodeWord 0b0011000000000000 = .ok .clk ∧
  decodeWord 0b0100000000000000 = .ok .tick ∧
  decodeWord 0b0101000000000000 = .ok .edge ∧
  decodeWord 0b0110000000110111 = .ok (.adcdone 55) ∧
  decodeWord 0b0110000011111111 = .ok (.adcdone 255) ∧
  decodeWord 0b0111000000000000 = .ok .lstep ∧
  decodeWord 0b1000000000000000 = .error (.reservedOp 0x8000) ∧
  decodeWord 0b0110000100110111 = .error (.nonzeroZ 0x6137) ∧
  decodeWord 0b0101000000000001 = .error (.operandOnNFormat 0x5001)

/-- Decoding the bytes of any operation gives it back, every operand at every value, with the rest of the stream untouched
(R101 to R103; D1). -/
def Obligations.DecodeEncodeRoundTrip : Prop :=
  ∀ (i : Instr) (rest : List Byte), decode (encodeBytes i ++ rest) = .ok (i, rest)

/-- The assigned words are exactly the encodings: a word decodes to an operation if and only if it is that operation's word
(R103, R104; D1, D28). -/
def Obligations.AssignedWordsAreTheEncodings : Prop :=
  ∀ (w : Word) (i : Instr), decodeWord w = .ok i ↔ encode i = w

/-- No word selects two rows of the opcode map (R103; D1). -/
def Obligations.OpcodeRowsAreDisjoint : Prop :=
  ∀ (w : Word) (r₁ r₂ : OpcodeRow), r₁ ∈ opcodeRows → r₂ ∈ opcodeRows →
    r₁.selects w = true → r₂.selects w = true → r₁ = r₂

/-- R94: a byte's bits are sent bit 7 first, and eight received bits make the sum of bit i times 2^(7 - i). -/
def Obligations.BytesAreSentMostSignificantBitFirst : Prop :=
  (∀ (b0 b1 b2 b3 b4 b5 b6 b7 : Bool),
    (byteOfBits [b0, b1, b2, b3, b4, b5, b6, b7]).toNat =
      b0.toNat * 2 ^ 7 + b1.toNat * 2 ^ 6 + b2.toNat * 2 ^ 5 + b3.toNat * 2 ^ 4 +
      b4.toNat * 2 ^ 3 + b5.toNat * 2 ^ 2 + b6.toNat * 2 ^ 1 + b7.toNat * 2 ^ 0) ∧
  (∀ (v : Byte) (i : Nat), i < 8 → (bitsOfByte v)[i]? = some (v.getLsbD (7 - i))) ∧
  (∀ frame : Vector Byte 8, bytesOfBits 8 (bitsOfFrame frame.toList) = frame.toList)

/-! ## The step and the stimulus -/

/-- When the stimulus begins with the word of an operation, step is exec of that operation at the state with the word taken:
the bytes after it remain, and one more word is counted (R11, R101; the stream in State is the model's own, logs 2
and 3). -/
def Obligations.StepRunsTheDecodedOperation : Prop :=
  ∀ (s : State) (i : Instr) (rest : List Byte), decode s.stim = .ok (i, rest) →
    step s = exec i { s with stim := rest, pos := s.pos + 1 }

/-- A word of no row of the opcode map is refused, naming the word and its position, whatever the state (R104; D28). -/
def Obligations.ReservedWordsAreRefused : Prop :=
  ∀ (s : State) (hi lo : Byte) (rest : List Byte), s.stim = hi :: lo :: rest →
    (fieldsOf (hi ++ lo)).wf = false → step s = .refused (.reservedWord s.pos (hi ++ lo))

/-- A run of operations is the run of the stream of their words: as many steps as there are operations reach the same state of
the block, the words taken from the stream and counted (30_encoding.md section B and 00_scope.md section 5 for the operations; the stream held in
State is the model's own choice, log 2, and so is the count of words, log 3). -/
def Obligations.StreamRunsItsOperations : Prop :=
  ∀ (ops : List Instr) (s t : State) (rest : List Byte), runOps ops s = .next t →
    Sys2Proof.core.run ops.length { s with stim := encodeStream ops ++ rest } =
      .next { t with stim := rest, pos := s.pos + ops.length }

/-- Every operation has a next state in every state, except INIT with RUN = 1 (60_exceptions.md section 1; D15). -/
def Obligations.EveryOperationIsTotal : Prop :=
  ∀ (i : Instr) (s : State), ¬ (i = .init ∧ s.run = true) → ∃ t, exec i s = .next t

/-- Every admitted execution has its states, and only one sequence of them. A finite one runs to its end; an infinite one has exactly one state
before each operation, the one its first n operations lead to. Admitted is any sequence, in any order, in which INIT comes only
while the block is not running (60_exceptions.md section 4; D15, log 8). -/
def Obligations.AdmittedExecutionsRunToTheirEnd : Prop :=
  (∀ (ops : List Instr) (s : State), admitted s.run ops = true → ∃ t, runOps ops s = .next t) ∧
  (∀ (ops : Nat → Instr) (s : State), AdmittedForever s.run ops →
    ∃ states : Nat → State, (∀ n, runOps (firstOps ops n) s = .next (states n)) ∧
      ∀ states' : Nat → State, InfiniteExecution s ops states' ↔ states' = states)

/-! ## RESET, INIT, IDLE -/

/-- RESET from any state gives the table of 10_state.md section 10 and does not depend on the state before it. PULSE = 255 is the
source's; SP_RESET is D7's and the other values D8's (logs 6 and 7). The stimulus stays (log 2). -/
def Obligations.ResetFromAnyState : Prop :=
  ∀ s : State, ∃ t, exec .reset s = .next t ∧
    t.run = false ∧ phaseNumber t.lph = 0 ∧
    t.per1 = 0 ∧ t.per2 = 0 ∧ t.cnt1 = 0 ∧ t.cnt2 = 0 ∧ t.duty1 = 0 ∧ t.duty2 = 0 ∧
    t.pulse = 255 ∧ t.ecnt = 0 ∧ t.byte = 0 ∧ t.crc = 0 ∧
    t.cmd.toList = [0, 0, 0, 0, 0, 0, 0, 0] ∧ t.sp.toList = [220, 220, 72, 72, 0, 0, 0, 0] ∧
    t.smp.toList = [0, 0, 0, 0] ∧ t.ch = 0 ∧ t.conv = false ∧
    t.aIm = 0 ∧ t.aIl = 0 ∧ t.aVm = 0 ∧ t.aVl = 0 ∧
    t.stim = s.stim ∧ t.pos = s.pos

/-- INIT while RUN = 0: periods, duties and RUN, and by D26 the counters, CH, CONV and LPH; PULSE, the decode state, SP, SMP and the
latches keep their values; adc_sel names slot 0 and adc_start pulses (40_configurator.md, INIT; D26). -/
def Obligations.InitConfiguresTheBlock : Prop :=
  ∀ s : State, s.run = false → ∃ t, exec .init s = .next t ∧
    t.per1 = Config.period ∧ t.per2 = Config.period ∧ t.cnt1 = 0 ∧ t.cnt2 = 0 ∧ t.duty1 = 0 ∧ t.duty2 = 0 ∧
    t.ch = 0 ∧ t.conv = true ∧ phaseNumber t.lph = 0 ∧ t.run = true ∧
    t = { s with per1 := t.per1, per2 := t.per2, cnt1 := t.cnt1, cnt2 := t.cnt2, duty1 := t.duty1,
                 duty2 := t.duty2, ch := t.ch, conv := t.conv, lph := t.lph, run := t.run } ∧
    adcSel t = Config.chanList 0 ∧ adcStart .init s = true

/-- INIT while RUN = 1 is refused: not a no-op and not a second configuration (40_configurator.md; D15, log 8). -/
def Obligations.SecondInitIsRefused : Prop :=
  ∀ s : State, s.run = true → exec .init s = .refused .initWhileRunning

/-- IDLE changes nothing, in every state (40_configurator.md, IDLE; D1). -/
def Obligations.IdleChangesNothing : Prop :=
  ∀ s : State, exec .idle s = .next s

/-- Between RESET and INIT no event has an effect and none is remembered (40_configurator.md; D14, log 9). -/
def Obligations.NothingActsBeforeInit : Prop :=
  ∀ (s : State) (r : Byte), s.run = false →
    exec .clk s = .next s ∧ exec .tick s = .next s ∧ exec .edge s = .next s ∧
    exec (.adcdone r) s = .next s ∧ exec .lstep s = .next s

/-- The state after BOOT, from any state (70_reset_and_hazards.md section 2, derived there from RESET and INIT; D7, D8, D26). -/
def Obligations.BootedState : Prop :=
  ∀ s : State, ∃ t, runOps boot s = .next t ∧
    t.run = true ∧ phaseNumber t.lph = 0 ∧ t.per1 = Config.period ∧ t.per2 = Config.period ∧
    t.cnt1 = 0 ∧ t.cnt2 = 0 ∧ t.duty1 = 0 ∧ t.duty2 = 0 ∧ t.pulse = 255 ∧ t.ecnt = 0 ∧ t.byte = 0 ∧ t.crc = 0 ∧
    t.cmd.toList = [0, 0, 0, 0, 0, 0, 0, 0] ∧ t.sp.toList = [220, 220, 72, 72, 0, 0, 0, 0] ∧
    t.smp.toList = [0, 0, 0, 0] ∧ t.ch = 0 ∧ t.conv = true ∧
    t.aIm = 0 ∧ t.aIl = 0 ∧ t.aVm = 0 ∧ t.aVl = 0 ∧
    out1 t = false ∧ out2 t = false ∧ adcSel t = Config.chanList 0

/-- RUN is set by INIT alone and cleared by RESET alone (10_state.md section 2; D14). -/
def Obligations.RunIsWrittenOnlyByInitAndReset : Prop :=
  ∀ (i : Instr) (s t : State), exec i s = .next t → t.run ≠ s.run →
    (i = .init ∧ t.run = true) ∨ (i = .reset ∧ t.run = false)

/-- A reachable state with RUN = 0 is the reset state: no event before INIT leaves a trace (40_configurator.md; D14). -/
def Obligations.ReachableUnconfiguredStateIsReset : Prop :=
  ∀ s : State, Reachable s → s.run = false → SameBlock State.reset s

/-! ## CLK and the outputs -/

/-- CLK while RUN = 1: each counter counts modulo its own period, and PULSE takes one tick exactly when timer 1 returns to 0; nothing
else changes (41_pwm_generator.md, CLK and tick generation; the counter's range is D4's and the tick source D6's). -/
def Obligations.ClkCountsBothTimers : Prop :=
  ∀ s : State, s.run = true → ∃ t, exec .clk s = .next t ∧
    t.cnt1.toNat = (if s.cnt1.toNat + 1 ≥ s.per1.toNat then 0 else s.cnt1.toNat + 1) ∧
    t.cnt2.toNat = (if s.cnt2.toNat + 1 ≥ s.per2.toNat then 0 else s.cnt2.toNat + 1) ∧
    t.pulse.toNat = (if s.cnt1.toNat + 1 ≥ s.per1.toNat then min 255 (s.pulse.toNat + 1) else s.pulse.toNat) ∧
    t = { s with cnt1 := t.cnt1, cnt2 := t.cnt2, pulse := t.pulse }

/-- Each output is a function of the state, active exactly when RUN = 1 and CNTn < DUTYn (10_state.md section 3 and 41_pwm_generator.md, the output
function); that it is inactive with RUN = 0 is D20's, log 20. -/
def Obligations.OutputActiveWhileCounterBelowDuty : Prop :=
  ∀ s : State,
    (out1 s = true ↔ s.run = true ∧ s.cnt1.toNat < s.duty1.toNat) ∧
    (out2 s = true ↔ s.run = true ∧ s.cnt2.toNat < s.duty2.toNat)

/-- One PWM cycle, PERIOD clock periods, returns both counters to their starting values and does exactly one tick action
(30_encoding.md, PWMCYCLE, derived there). -/
def Obligations.PwmCycleReturnsAndTicksOnce : Prop :=
  ∀ s : State, Inv s → s.run = true → ∃ t, runOps pwmCycle s = .next t ∧
    t.pulse.toNat = min 255 (s.pulse.toNat + 1) ∧ t = { s with pulse := t.pulse }

/-- Over one PWM cycle each output is active for exactly min(DUTYn, PERIOD) clock periods, wherever the cycle starts and whatever the
duty (41_pwm_generator.md, duty extremes, derived there; D4, D5). -/
def Obligations.ActiveClocksPerCycleEqualDuty : Prop :=
  ∀ s : State, s.run = true → s.per1 = Config.period → s.per2 = Config.period →
    s.cnt1.toNat < Config.period.toNat → s.cnt2.toNat < Config.period.toNat →
    activeClocks1 Config.period.toNat s = min s.duty1.toNat Config.period.toNat ∧
    activeClocks2 Config.period.toNat s = min s.duty2.toNat Config.period.toNat

/-! ## TICK -/

/-- TICK increments PULSE, clamped at 255, while RUN = 1 and changes nothing else (43_reference_counter.md, TICK); with RUN = 0 it changes nothing
(D14, log 9); and the same action is done inside a CLK that overflows timer 1 (D6, log 12). -/
def Obligations.TickSaturatesThePulseCounter : Prop :=
  ∀ s : State,
    (s.run = false → exec .tick s = .next s) ∧
    (s.run = true → ∃ t, exec .tick s = .next t ∧
      t.pulse.toNat = min 255 (s.pulse.toNat + 1) ∧ t = { s with pulse := t.pulse }) ∧
    (s.run = true → s.cnt1.toNat + 1 ≥ s.per1.toNat → ∃ t, exec .clk s = .next t ∧
      t.pulse.toNat = min 255 (s.pulse.toNat + 1))

/-- PULSE is the number of tick actions since the last edge, saturated at 255, whatever else ran in between
(43_reference_counter.md, time base, derived there). -/
def Obligations.PulseCountsTickActionsSinceTheEdge : Prop :=
  ∀ (s : State) (ops : List Instr), s.run = true →
    (∀ i ∈ ops, isRunOp i = true ∧ i ≠ .edge) →
    ∃ u t, exec .edge s = .next u ∧ runOps ops u = .next t ∧
      t.pulse.toNat = min 255 (tickActions ops u)

/-! ## EDGE -/

/-- R201: every running edge, data edge or not, resync or not, restarts the interval timer; what it may write besides is ECNT, BYTE, CRC, CMD
and SP, and nothing else changes. -/
def Obligations.EveryEdgeRestartsTheInterval : Prop :=
  ∀ s : State, s.run = true → ∃ t, exec .edge s = .next t ∧ t.pulse = 0 ∧
    t = { s with pulse := t.pulse, ecnt := t.ecnt, byte := t.byte, crc := t.crc, cmd := t.cmd, sp := t.sp }

/-- An edge that finds PULSE = 255 restarts framing, from any decoder state: CRC is cleared and the edge is e0, so ECNT is 1 after it; BYTE, CMD
and SP keep what they had (44_frame_decoder.md, step 1; that ECNT ends at 1 is the spec's inference, C8). -/
def Obligations.ResyncEdgeStartsAFrame : Prop :=
  ∀ s : State, s.run = true → s.pulse = 255 → ∃ t, exec .edge s = .next t ∧
    t.ecnt = 1 ∧ t.crc = 0 ∧ t.pulse = 0 ∧
    t = { s with ecnt := t.ecnt, crc := t.crc, pulse := t.pulse }

/-- Classification and shift: an edge that finds ECNT odd shifts a 1 into BYTE if the interval is below 5 and a 0 otherwise, old bit 7
dropped; an edge that finds ECNT even leaves BYTE alone (44_frame_decoder.md, steps 2 and 4; the parity is D10's, log 10). -/
def Obligations.DataEdgeShiftsTheClassifiedBit : Prop :=
  ∀ s : State, s.run = true → s.pulse ≠ 255 → ∃ t, exec .edge s = .next t ∧
    (s.ecnt.toNat % 2 = 1 →
      t.byte.toNat = (2 * s.byte.toNat + (if s.pulse.toNat < 5 then 1 else 0)) % 256) ∧
    (s.ecnt.toNat % 2 = 0 → t.byte = s.byte)

/-- After 128 edges ECNT becomes 0, not 128; in every other case the count goes up by one (44_frame_decoder.md, frame completion); a resync edge
leaves 1, which is the spec's inference from the order of the steps (C8). -/
def Obligations.EdgeCountReturnsToZeroAfter128 : Prop :=
  ∀ s : State, s.run = true → s.ecnt.toNat ≤ 127 → ∃ t, exec .edge s = .next t ∧
    t.ecnt.toNat =
      (if s.pulse = 255 then 1 else if s.ecnt.toNat + 1 = 128 then 0 else s.ecnt.toNat + 1)

/-- When e = ECNT + 1 is a multiple of 16, CMD[(e div 16) - 1] takes BYTE as it is after this edge's shift, the byte's last bit with it; no
other element changes; and on every other edge, the resync edge too, CMD does not change (44_frame_decoder.md, byte completion; that the sixteenth
edge is a data edge is the spec's inference, from D10's parity, log 10). -/
def Obligations.CompletedByteIsStaged : Prop :=
  ∀ s : State, s.run = true → s.ecnt.toNat ≤ 127 → ∃ t, exec .edge s = .next t ∧
    (s.pulse ≠ 255 → (s.ecnt.toNat + 1) % 16 = 0 →
      ∃ k : Fin 8, k.val = (s.ecnt.toNat + 1) / 16 - 1 ∧ t.cmd[k] = t.byte ∧
        t.byte.toNat = (2 * s.byte.toNat + (if s.pulse.toNat < 5 then 1 else 0)) % 256 ∧
        ∀ j : Fin 8, j ≠ k → t.cmd[j] = s.cmd[j]) ∧
    (s.pulse = 255 ∨ (s.ecnt.toNat + 1) % 16 ≠ 0 → t.cmd = s.cmd)

/-- On the same condition the same byte is XORed into the running checksum (44_frame_decoder.md, checksum), and on the edge that completes the frame
the result is what decides the publish; on any other edge without a resync the checksum stays. -/
def Obligations.CompletedByteIsFoldedIntoTheChecksum : Prop :=
  ∀ s : State, s.run = true → s.ecnt.toNat ≤ 127 → s.pulse ≠ 255 → ∃ t, exec .edge s = .next t ∧
    ((s.ecnt.toNat + 1) % 16 = 0 → s.ecnt.toNat + 1 ≠ 128 → t.crc = s.crc ^^^ t.byte) ∧
    (s.ecnt.toNat + 1 = 128 → s.crc ^^^ t.byte = 0 → t.sp = t.cmd) ∧
    (s.ecnt.toNat + 1 = 128 → s.crc ^^^ t.byte ≠ 0 → t.sp = s.sp) ∧
    ((s.ecnt.toNat + 1) % 16 ≠ 0 → t.crc = s.crc)

/-- R205: the edge that completes the frame publishes all eight staged bytes at once if and only if the checksum, the eighth byte folded in, is 0;
nothing outside the decoder changes: no flag, no acknowledge. -/
def Obligations.ValidFrameIsPublishedWhole : Prop :=
  ∀ s : State, s.run = true → s.pulse ≠ 255 → s.ecnt = 127 → ∃ t, exec .edge s = .next t ∧
    (s.crc ^^^ t.byte = 0 → ∀ j : Fin 8, t.sp[j] = t.cmd[j]) ∧
    (s.crc ^^^ t.byte ≠ 0 → t.sp = s.sp) ∧
    t.cmd[7] = t.byte ∧
    t = { s with pulse := t.pulse, ecnt := t.ecnt, byte := t.byte, crc := t.crc, cmd := t.cmd, sp := t.sp }

/-- R206: a frame whose checksum is not 0 is dropped: SP keeps what it had, and CMD keeps the rejected bytes; and a frame left incomplete is dropped
by the resync edge, which publishes nothing. -/
def Obligations.InvalidFrameIsDropped : Prop :=
  ∀ s : State, s.run = true → ∃ t, exec .edge s = .next t ∧
    (s.pulse ≠ 255 → s.ecnt = 127 → s.crc ^^^ t.byte ≠ 0 →
      t.sp = s.sp ∧ (∀ j : Fin 8, j ≠ 7 → t.cmd[j] = s.cmd[j]) ∧ t.cmd[7] = t.byte) ∧
    (s.pulse = 255 → t.sp = s.sp ∧ t.cmd = s.cmd)

/-- The checksum is cleared when a frame completes, valid or not, so the next frame starts from 0 (44_frame_decoder.md, checksum clear; the
clear is D11's, log 11). -/
def Obligations.ChecksumIsClearedAtFrameEnd : Prop :=
  ∀ s : State, s.run = true → s.ecnt = 127 → ∃ t, exec .edge s = .next t ∧ t.crc = 0

/-- Any 64 bit cells with live intervals, received from a frame start (a saturated interval, or edge 0 with a clear checksum), stage
exactly the eight bytes their data intervals spell, and publish them if and only if their XOR is 0; the state outside the decoder
is as before (30_encoding.md part A and 44_frame_decoder.md together; D10, D11). -/
def Obligations.ReceivedCellsAreStagedAndPublishedIfValid : Prop :=
  ∀ (s : State) (first : WireCell) (cells : List WireCell),
    s.run = true → cells.length = 63 → first.data < 255 → (∀ c ∈ cells, cellLive c = true) →
    (s.pulse.toNat + first.gap ≥ 255 ∨ (s.ecnt = 0 ∧ s.crc = 0)) →
    ∃ t, runOps (cellsOps (first :: cells)) s = .next t ∧
      t.cmd.toList = bytesOfBits 8 (bitsOfCells (first :: cells)) ∧
      (xorBytes t.cmd.toList = 0 → t.sp = t.cmd) ∧
      (xorBytes t.cmd.toList ≠ 0 → t.sp = s.sp) ∧
      t.ecnt = 0 ∧ t.crc = 0 ∧ t.pulse = 0 ∧
      t = { s with pulse := t.pulse, ecnt := t.ecnt, byte := t.byte, crc := t.crc, cmd := t.cmd, sp := t.sp }

/-- SENDFRAME from any running state, with any timing on the right side of the thresholds: for all eight bytes with XOR 0 the Setpoint Frame
becomes exactly them after the completing edge, and for all others it stays (44_frame_decoder.md, the laws of section 8 of the
source; 30_encoding.md, SENDFRAME; D10, D11). -/
def Obligations.SentFrameBecomesTheSetpointFrame : Prop :=
  ∀ (s : State) (tm : CellTiming) (frame : Vector Byte 8), s.run = true → tm.wf = true →
    ∃ t, runOps (sendFrame tm frame) s = .next t ∧ t.cmd = frame ∧
      (xorBytes frame.toList = 0 → t.sp = frame) ∧
      (xorBytes frame.toList ≠ 0 → t.sp = s.sp) ∧ t.ecnt = 0 ∧ t.crc = 0

/-- The framing slip: one edge too many, and a frame sent with uniform gaps is read as eight equal bytes, 0xFF for gaps under 5 ticks and 0x00
otherwise, and is PUBLISHED, whatever it was (44_frame_decoder.md, noise and slips; 70_reset_and_hazards.md, H6; derived there). -/
def Obligations.SlippedFrameIsPublishedAsEqualBytes : Prop :=
  ∀ (s : State) (tm : CellTiming) (frame : Vector Byte 8), s.run = true → tm.wf = true →
    s.ecnt = 1 → s.crc = 0 → s.pulse = 0 →
    ∃ t, runOps (sendFrameNoGap tm frame) s = .next t ∧ t.ecnt = 1 ∧
      (tm.gap < 5 → t.sp.toList = List.replicate 8 255) ∧
      (tm.gap ≥ 5 → t.sp.toList = List.replicate 8 0)

/-- SP changes, but by RESET, only in an edge that publishes, and then to the whole staged frame, whose XOR is 0 (10_state.md,
the Setpoint Frame and its invariant; D7 for the reset value, log 7). -/
def Obligations.SetpointsChangeOnlyByPublish : Prop :=
  ∀ (i : Instr) (s t : State), Inv s → i ≠ .reset → exec i s = .next t → t.sp ≠ s.sp →
    i = .edge ∧ publishes s = true ∧ t.sp = t.cmd ∧ xorBytes t.sp.toList = 0

/-! ## ADCDONE -/

/-- With RUN = 1 and a conversion armed, the result goes whole into the slot CH names before the advance, no other slot changes, CH
advances modulo 4, CONV stays 1, adc_sel names the new slot's channel and adc_start pulses (42_feedback_sampler.md, ADCDONE); with RUN = 0
(D14, log 9) or with CONV = 0 (D27, log 22) nothing changes. -/
def Obligations.AdcdoneStoresAndAdvances : Prop :=
  ∀ (s : State) (r : Byte),
    (s.run = true → s.conv = true → ∃ t, exec (.adcdone r) s = .next t ∧
      t.smp[s.ch] = r ∧ (∀ j : Fin 4, j ≠ s.ch → t.smp[j] = s.smp[j]) ∧
      t.ch.val = (s.ch.val + 1) % 4 ∧ t.conv = true ∧
      t = { s with smp := t.smp, ch := t.ch } ∧
      adcSel t = Config.chanList t.ch ∧ adcStart (.adcdone r) s = true) ∧
    (s.run = false ∨ s.conv = false → exec (.adcdone r) s = .next s)

/-- Four completions refresh every slot, whatever the index they start from, and return the index to it; from CH = 0 this is ADCSCAN
(30_encoding.md, ADCSCAN, and 42_feedback_sampler.md, refresh guarantee, derived there). -/
def Obligations.FourCompletionsRefreshEverySlot : Prop :=
  ∀ (s : State) (r : Vector Byte 4), s.run = true → s.conv = true →
    ∃ t, runOps (adcScan r[0] r[1] r[2] r[3]) s = .next t ∧
      (∀ k : Fin 4, t.smp[s.ch + k] = r[k]) ∧ t = { s with smp := t.smp }

/-- A missed completion: in any execution without ADCDONE the sampler stays as it is for ever, and the rest of the block runs on
(42_feedback_sampler.md, missed completion; the executions are those of 60_exceptions.md section 4). -/
def Obligations.MissedCompletionFreezesTheSampler : Prop :=
  ∀ (ops : List Instr) (s : State), noCompletion ops = true →
    ∃ t, runOps ops s = .next t ∧ t.smp = s.smp ∧ t.ch = s.ch ∧ t.conv = s.conv

/-- The sample is the top eight bits of the converter's result: floor(res / 2^(ADC_BITS - 8)), bit by bit the slice
res[ADC_BITS-1 : ADC_BITS-8] (42_feedback_sampler.md, the sample value; ADC_BITS is OPEN, D18). -/
def Obligations.SampleIsTheTopEightBits : Prop :=
  ∀ res : BitVec Config.adcBits,
    (sampleOf res).toNat = res.toNat / 2 ^ (Config.adcBits - 8) ∧
    ∀ i : Nat, i < 8 → (sampleOf res).getLsbD i = res.getLsbD (i + (Config.adcBits - 8))

/-! ## LSTEP -/

/-- Each loading phase reads one byte at its address and puts it into its latch, and the loop goes on to the next phase; nothing else changes
(45_control_loop.md, phases 0 to 3 and 5 to 8). The phases and their order are D9's sequencer, log 14; the addresses are D2's, log 17. -/
def Obligations.LoadPhasesReadOneByteEach : Prop :=
  ∀ s : State, s.run = true →
    (s.lph = .ldIm1 → memRead1 s 0x16 = .ok s.smp[2] ∧
      exec .lstep s = .next { s with aIm := s.smp[2], lph := .ldIl1 }) ∧
    (s.lph = .ldIl1 → memRead1 s 0x1A = .ok s.sp[2] ∧
      exec .lstep s = .next { s with aIl := s.sp[2], lph := .ldVm1 }) ∧
    (s.lph = .ldVm1 → memRead1 s 0x14 = .ok s.smp[0] ∧
      exec .lstep s = .next { s with aVm := s.smp[0], lph := .ldVl1 }) ∧
    (s.lph = .ldVl1 → memRead1 s 0x18 = .ok s.sp[0] ∧
      exec .lstep s = .next { s with aVl := s.sp[0], lph := .adj1 }) ∧
    (s.lph = .ldIm2 → memRead1 s 0x17 = .ok s.smp[3] ∧
      exec .lstep s = .next { s with aIm := s.smp[3], lph := .ldIl2 }) ∧
    (s.lph = .ldIl2 → memRead1 s 0x1B = .ok s.sp[3] ∧
      exec .lstep s = .next { s with aIl := s.sp[3], lph := .ldVm2 }) ∧
    (s.lph = .ldVm2 → memRead1 s 0x15 = .ok s.smp[1] ∧
      exec .lstep s = .next { s with aVm := s.smp[1], lph := .ldVl2 }) ∧
    (s.lph = .ldVl2 → memRead1 s 0x19 = .ok s.sp[1] ∧
      exec .lstep s = .next { s with aVl := s.sp[1], lph := .adj2 })

/-- The control law on mathematical integers, the three branches in their order, for every PERIOD (45_control_loop.md, the control law); that the
sums are not reduced to 8 bits is D21's, log 15. -/
def Obligations.ControlLawOnIntegers : Prop :=
  ∀ (period d : Word) (im il vm vl : Byte),
    (adjust period d im il vm vl).toNat =
      if im.toNat > il.toNat ∨ vm.toNat > vl.toNat then d.toNat - 1
      else if im.toNat + 10 < il.toNat ∧ vm.toNat + 20 < vl.toNat then min (d.toNat + 1) period.toNat
      else d.toNat

/-- The adjusting phases write the control law of their own channel's duty and the latches; nothing else but the phase changes (45_control_loop.md,
phases 4 and 9). The phases and those that follow them are D9's sequencer, log 14. -/
def Obligations.AdjustPhasesWriteTheirOwnDuty : Prop :=
  ∀ s : State, s.run = true →
    (s.lph = .adj1 → exec .lstep s =
      .next { s with duty1 := adjust Config.period s.duty1 s.aIm s.aIl s.aVm s.aVl, lph := .ldIm2 }) ∧
    (s.lph = .adj2 → exec .lstep s =
      .next { s with duty2 := adjust Config.period s.duty2 s.aIm s.aIl s.aVm s.aVl, lph := .wait })

/-- Every running LSTEP advances the phase by one modulo 11, whatever the data; the waiting phase changes nothing else
(45_control_loop.md, phase advance and WAIT; the eleven phases are D9's and the wait D19's, logs 14 and 21). -/
def Obligations.PhaseAdvancesModuloEleven : Prop :=
  ∀ s : State, s.run = true → ∃ t, exec .lstep s = .next t ∧
    phaseNumber t.lph = (phaseNumber s.lph + 1) % 11 ∧
    (phaseNumber s.lph = 10 → t = { s with lph := t.lph })

/-- One iteration adjusts each channel by the law on its own samples and limits and returns to phase 0; what it changes is the two
duties and the latches (45_control_loop.md, structure and operand map; LOOPITER, derived; D9). -/
def Obligations.OneIterationAdjustsBothChannels : Prop :=
  ∀ s : State, s.run = true → s.lph = .ldIm1 → ∃ t, runOps loopIter s = .next t ∧
    t.duty1 = adjust Config.period s.duty1 s.smp[2] s.sp[2] s.smp[0] s.sp[0] ∧
    t.duty2 = adjust Config.period s.duty2 s.smp[3] s.sp[3] s.smp[1] s.sp[1] ∧
    t = { s with duty1 := t.duty1, duty2 := t.duty2, aIm := s.smp[3], aIl := s.sp[3],
                 aVm := s.smp[1], aVl := s.sp[1] }

/-- R252: over any number of iterations, each after a scan of its own and for each channel: while a measurement exceeds its limit the
duty falls by exactly one per iteration to 0 and holds there; while both measurements are inside their bands it holds; while
both are below their limits by more than the bands it rises by one per iteration, up to PERIOD. -/
def Obligations.HysteresisLawsOverIterations : Prop :=
  ∀ (c : Fin 2) (scans : List (Vector Byte 4)) (s : State),
    s.run = true → s.conv = true → s.ch = 0 → s.lph = .ldIm1 →
    ∃ t, runOps (regulate scans) s = .next t ∧
      ((∀ m ∈ scans, m[currentIndex c].toNat > (readSetpoint s (currentIndex c)).toNat ∨
          m[voltageIndex c].toNat > (readSetpoint s (voltageIndex c)).toNat) →
        (dutyOf t c).toNat = (dutyOf s c).toNat - scans.length) ∧
      ((∀ m ∈ scans,
          m[currentIndex c].toNat ≤ (readSetpoint s (currentIndex c)).toNat ∧
          (readSetpoint s (currentIndex c)).toNat ≤ m[currentIndex c].toNat + 10 ∧
          m[voltageIndex c].toNat ≤ (readSetpoint s (voltageIndex c)).toNat ∧
          (readSetpoint s (voltageIndex c)).toNat ≤ m[voltageIndex c].toNat + 20) →
        dutyOf t c = dutyOf s c) ∧
      ((∀ m ∈ scans, m[currentIndex c].toNat + 10 < (readSetpoint s (currentIndex c)).toNat ∧
          m[voltageIndex c].toNat + 20 < (readSetpoint s (voltageIndex c)).toNat) →
        (dutyOf s c).toNat ≤ Config.period.toNat →
        (dutyOf t c).toNat = min ((dutyOf s c).toNat + scans.length) Config.period.toNat)

/-- Rate limit: no operation of a running block moves a duty by more than one count, and none but the adjusting LSTEP of its channel moves it
at all (45_control_loop.md, rate limit, derived there). -/
def Obligations.DutyMovesAtMostOneCount : Prop :=
  ∀ (i : Instr) (s t : State) (c : Fin 2), isRunOp i = true → exec i s = .next t →
    (dutyOf s c).toNat ≤ Config.period.toNat →
    (dutyOf t c).toNat ≤ (dutyOf s c).toNat + 1 ∧ (dutyOf s c).toNat ≤ (dutyOf t c).toNat + 1 ∧
    (dutyOf t c).toNat ≤ Config.period.toNat ∧
    (dutyOf t c ≠ dutyOf s c → i = .lstep ∧ s.run = true ∧ s.lph = adjustPhase c)

/-- The torn read: an edge after k of the eleven LSTEPs of an iteration. Each setpoint byte comes from the frame before the edge or from the one
after it according to k alone, so a publish after phase 1 and before phase 3 gives channel 1 the old current limit with the new
voltage limit, and so on for every position (45_control_loop.md, the torn read; 70_reset_and_hazards.md, H1; read order D9). -/
def Obligations.EdgeInAnIterationTearsTheSetpoints : Prop :=
  ∀ (s u : State) (k : Nat), s.run = true → s.lph = .ldIm1 → k ≤ 11 → exec .edge s = .next u →
    ∃ t, runOps (List.replicate k .lstep ++ [.edge] ++ List.replicate (11 - k) .lstep) s = .next t ∧
      t.duty1 = adjust Config.period s.duty1 s.smp[2] (if k ≤ 1 then u.sp[2] else s.sp[2])
        s.smp[0] (if k ≤ 3 then u.sp[0] else s.sp[0]) ∧
      t.duty2 = adjust Config.period s.duty2 s.smp[3] (if k ≤ 6 then u.sp[3] else s.sp[3])
        s.smp[1] (if k ≤ 8 then u.sp[1] else s.sp[1]) ∧
      t.sp = u.sp ∧ t.lph = .ldIm1

/-! ## Interrupts and interleavings -/

/-- Taking an interrupt saves nothing and its handler's return restores nothing: in every state a handler leaves the main loop's phase and latches,
the duties, the timers and RUN as they are (60_exceptions.md section 3, derived there). -/
def Obligations.HandlersLeaveTheMainLoopAlone : Prop :=
  ∀ (i : Instr) (s : State), contextOf i = some .interrupt → ∃ t, exec i s = .next t ∧
    t = { s with pulse := t.pulse, ecnt := t.ecnt, byte := t.byte, crc := t.crc, cmd := t.cmd, sp := t.sp,
                 smp := t.smp, ch := t.ch, conv := t.conv }

/-- A coinciding tick and edge may run in either order, and the orders differ: tick first leaves PULSE = 0 and the edge reads one more; edge
first leaves PULSE = 1. At an interval of 4 on a data edge the bit itself differs (60_exceptions.md section 2; D13,
log 13). -/
def Obligations.TickAndEdgeRunInEitherOrder : Prop :=
  coincidingOrders true true none = [[.tick, .edge], [.edge, .tick]] ∧
  ∀ s : State, s.run = true →
    ∃ t u, runOps [.tick, .edge] s = .next t ∧ runOps [.edge, .tick] s = .next u ∧
      t.pulse = 0 ∧ u.pulse = 1 ∧
      (s.pulse = 4 → s.ecnt.toNat % 2 = 1 → t.byte.getLsbD 0 = false ∧ u.byte.getLsbD 0 = true)

/-- Two adjacent operations of different agents of a running block may be swapped without changing the resulting state, but for the pairs the spec
lists (60_exceptions.md section 4, derived there from the access matrix). -/
def Obligations.IndependentAgentsCommute : Prop :=
  ∀ (i j : Instr) (s : State), isRunOp i = true → isRunOp j = true → agentOf i ≠ agentOf j →
    conflicts s i j = false → conflicts s j i = false →
    ∃ si sj t, exec i s = .next si ∧ exec j si = .next t ∧ exec j s = .next sj ∧ exec i sj = .next t

/-! ## Whole-machine rules -/

/-- Every step keeps the invariants of 10_state.md section 9 (derived there). -/
def Obligations.EveryStepKeepsTheInvariants : Prop :=
  ∀ s t : State, Inv s → step s = .next t → Inv t

/-- The reset state has the invariants (10_state.md section 9; SP_RESET xors to 0, D7). -/
def Obligations.ResetStateHasTheInvariants : Prop := Inv State.reset

/-- The frame of every operation, byte by byte: an operation changes no byte of the data space but those at the addresses the access table gives it in
that state (20_memory.md section 5; 10_state.md section 8). -/
def Obligations.OperationsStoreOnlyWhereListed : Prop :=
  ∀ (i : Instr) (s t : State) (a : Nat), exec i s = .next t → a ∉ storeAddrs i s → byteAt t a = byteAt s a

/-- What an operation stores depends only on the bytes the access table lets it read: two states that agree there are stored to at the same addresses,
with the same bytes (20_memory.md section 5; 10_state.md section 8). -/
def Obligations.EffectsDependOnlyOnListedReads : Prop :=
  ∀ (i : Instr) (s₁ s₂ t₁ t₂ : State), exec i s₁ = .next t₁ → exec i s₂ = .next t₂ →
    (∀ a ∈ readAddrs i s₁, byteAt s₁ a = byteAt s₂ a) →
    storeAddrs i s₁ = storeAddrs i s₂ ∧ ∀ a ∈ storeAddrs i s₁, byteAt t₁ a = byteAt t₂ a

/-! ## The local data space -/

/-- A one-byte write inside the data space reads back in its implemented bits, leaves every other byte alone, and is refused only for a phase LPH
cannot hold (20_memory.md section 1; the map is D2's, logs 17 and 18). -/
def Obligations.ByteWriteReadsBack : Prop :=
  ∀ (s : State) (a : Nat) (v : Byte), a < 48 → (a = 0x01 → v.toNat % 16 ≤ 10) →
    ∃ t, memWrite1 s a v = .ok t ∧ byteAt t a = v &&& implementedBits a ∧
      ∀ b : Nat, b ≠ a → byteAt t b = byteAt s b

/-- The six 16-bit registers are aligned pairs with the high byte at the even address, and a two-byte write of one sets it and nothing
else (20_memory.md section 2; D3). -/
def Obligations.RegisterPairsAreBigEndian : Prop :=
  ∀ (s : State) (w : Word),
    (memRead2 s 0x02 = .ok s.per1 ∧ memRead2 s 0x04 = .ok s.per2 ∧ memRead2 s 0x06 = .ok s.cnt1 ∧
     memRead2 s 0x08 = .ok s.cnt2 ∧ memRead2 s 0x0A = .ok s.duty1 ∧ memRead2 s 0x0C = .ok s.duty2) ∧
    (memWrite2 s 0x02 w = .ok { s with per1 := w } ∧ memWrite2 s 0x04 w = .ok { s with per2 := w } ∧
     memWrite2 s 0x06 w = .ok { s with cnt1 := w } ∧ memWrite2 s 0x08 w = .ok { s with cnt2 := w } ∧
     memWrite2 s 0x0A w = .ok { s with duty1 := w } ∧ memWrite2 s 0x0C w = .ok { s with duty2 := w })

/-- The exposed memory primitive refuses two bytes at an odd address and any address above 0x2F, and the observation port refuses every write
(20_memory.md sections 2 and 3, derived there; log 18). -/
def Obligations.MemoryPrimitiveRefusals : Prop :=
  ∀ (s : State) (a : Nat) (v : Byte) (w : Word),
    (48 ≤ a → memRead1 s a = .error (.outsideDataSpace a) ∧ memRead2 s a = .error (.outsideDataSpace a) ∧
      memWrite1 s a v = .error (.outsideDataSpace a) ∧ memWrite2 s a w = .error (.outsideDataSpace a)) ∧
    (a < 48 → a % 2 = 1 →
      memRead2 s a = .error (.misalignedPair a) ∧ memWrite2 s a w = .error (.misalignedPair a)) ∧
    observationWrite s a v = .error (.observationPortReadOnly a)

/-- The data space as a list of cells is canonical in every state and gives each address its byte; so two states have equal lists exactly when all 48
bytes agree (the list form is the model's own, log 17). -/
def Obligations.CellListIsCanonical : Prop :=
  ∀ s s' : State, Memory.wf (cells s) = true ∧
    (∀ a : Nat, a < 48 → Memory.read (cells s) a = byteAt s a) ∧
    (cells s = cells s' ↔ ∀ a : Nat, a < 48 → byteAt s a = byteAt s' a)
end

