-- ==== Sys2Proof/Laws/Arith.lean ====
section
/-! SUPPORT. The arithmetic of R14 and R15 on naturals: one lemma per operation says its exact value, so that no later proof
unfolds a narrowing. -/

namespace Sys2Proof.Machine

/-- The number of values of a timer register (R8), as a literal for arithmetic. -/
theorem two_pow_dutyBits : 2 ^ Config.dutyBits = 65536 := rfl

/-- A timer register is below 65536: the bound as a literal, which omega does not find behind DUTY_BITS. -/
theorem timerWord_lt (w : TimerWord) : w.toNat < 65536 := w.isLt

/-- A sample is below 256, likewise. -/
theorem sample_lt (v : Sample) : v.toNat < 256 := v.isLt

/-- ADC_BITS is 8 and more (R10), with SAMPLE_BITS as a literal. -/
theorem adcBits_eq : Config.adcBits = 8 + Config.adcExtraBits := rfl

/-- PERIOD is in 1..65535 (R9): all that is known of it. -/
theorem period_bounds : 1 ≤ Config.period.toNat ∧ Config.period.toNat ≤ 65535 := by
  have h := Config.periodIndex.isLt
  simp only [Config.period, BitVec.toNat_ofNat, two_pow_dutyBits]
  omega

@[simp] theorem satInc_toNat (v : Byte) : (satInc v).toNat = min 255 (v.toNat + 1) := by
  have h := v.isLt
  have hs : Config.sat.toNat = 255 := rfl
  unfold satInc
  split
  · simp only [BitVec.toNat_ofNat]; omega
  · omega

@[simp] theorem dec0_toNat (d : TimerWord) : (dec0 d).toNat = d.toNat - 1 := by
  have h := timerWord_lt d
  unfold dec0
  split
  · simp only [BitVec.toNat_ofNat, two_pow_dutyBits]; omega
  · simp; omega

@[simp] theorem incP_toNat (period d : TimerWord) : (incP period d).toNat = min (d.toNat + 1) period.toNat := by
  have h := timerWord_lt d
  have hp := timerWord_lt period
  simp only [incP, BitVec.toNat_ofNat, two_pow_dutyBits]
  omega

theorem countUp_toNat (per cnt : TimerWord) :
    (countUp per cnt).toNat = if per.toNat ≤ cnt.toNat + 1 then 0 else cnt.toNat + 1 := by
  have h := timerWord_lt cnt
  have hp := timerWord_lt per
  unfold countUp
  split
  · rfl
  · simp only [BitVec.toNat_ofNat, two_pow_dutyBits]; omega

/-- The shift of R200 as arithmetic: doubled, bit 7 dropped, the new bit added. -/
theorem shiftIn_toNat (acc : Byte) (b : Bool) : (shiftIn acc b).toNat = (2 * acc.toNat + b.toNat) % 256 := by
  revert acc b
  decide

@[simp] theorem pair_hiByte_loByte (w : Word) : pair (hiByte w) (loByte w) = w := by
  apply BitVec.eq_of_getLsbD_eq
  intro i hi
  simp only [pair, hiByte, loByte, BitVec.getLsbD_append, BitVec.getLsbD_extractLsb']
  by_cases h : i < 8
  · simp [h]
  · have h8 : i - 8 < 8 := by omega
    have e : 8 + (i - 8) = i := by omega
    simp [h, h8, e]

/-- Bit i of a pair: of the low byte below 8, of the high byte above (R13). -/
theorem pair_getLsbD (a b : Byte) (i : Nat) :
    (pair a b).getLsbD i = if i < 8 then b.getLsbD i else a.getLsbD (i - 8) :=
  BitVec.getLsbD_append

@[simp] theorem hiByte_pair (a b : Byte) : hiByte (pair a b) = a := by
  apply BitVec.eq_of_getLsbD_eq
  intro i hi
  simp [hiByte, pair_getLsbD, hi]

@[simp] theorem loByte_pair (a b : Byte) : loByte (pair a b) = b := by
  apply BitVec.eq_of_getLsbD_eq
  intro i hi
  simp [loByte, pair_getLsbD, hi]

theorem zero_xor_byte (b : Byte) : (0 : Byte) ^^^ b = b := BitVec.zero_xor

theorem foldl_xor (bs : List Byte) (x : Byte) : bs.foldl (fun acc b => acc ^^^ b) x = x ^^^ xorBytes bs := by
  induction bs generalizing x with
  | nil => exact BitVec.xor_zero.symm
  | cons b bs ih =>
    unfold xorBytes
    rw [List.foldl_cons, List.foldl_cons, ih, ih, zero_xor_byte, BitVec.xor_assoc]

@[simp] theorem xorBytes_nil : xorBytes [] = 0 := rfl

@[simp] theorem xorBytes_cons (b : Byte) (bs : List Byte) : xorBytes (b :: bs) = b ^^^ xorBytes bs := by
  unfold xorBytes
  rw [List.foldl_cons, foldl_xor, zero_xor_byte]
  rfl

theorem xorBytes_append (xs ys : List Byte) : xorBytes (xs ++ ys) = xorBytes xs ^^^ xorBytes ys := by
  unfold xorBytes
  rw [List.foldl_append, foldl_xor]
  rfl

@[simp] theorem phaseOfNumber_phaseNumber (p : Phase) : phaseOfNumber (phaseNumber p) = some p := by
  cases p <;> rfl

theorem phaseNumber_le (p : Phase) : phaseNumber p ≤ 10 := by
  cases p <;> decide

/-- The next phase is one more, modulo eleven (R243). -/
theorem phaseNumber_nextPhase (p : Phase) : phaseNumber (nextPhase p) = (phaseNumber p + 1) % 11 := by
  cases p <;> rfl

end Sys2Proof.Machine
end

