-- ==== Sys2Proof/Laws/State.lean ====
section
/-! SUPPORT. One lemma per field for each named update of the state, true by rfl, so that no proof unfolds a record update. -/

namespace Sys2Proof.Machine

/-! ## configure -/

@[simp] theorem configure_run (s : State) : (configure s).run = true := rfl
@[simp] theorem configure_lph (s : State) : (configure s).lph = .ldIm1 := rfl
@[simp] theorem configure_per1 (s : State) : (configure s).per1 = Config.period := rfl
@[simp] theorem configure_per2 (s : State) : (configure s).per2 = Config.period := rfl
@[simp] theorem configure_cnt1 (s : State) : (configure s).cnt1 = 0 := rfl
@[simp] theorem configure_cnt2 (s : State) : (configure s).cnt2 = 0 := rfl
@[simp] theorem configure_duty1 (s : State) : (configure s).duty1 = 0 := rfl
@[simp] theorem configure_duty2 (s : State) : (configure s).duty2 = 0 := rfl
@[simp] theorem configure_pulse (s : State) : (configure s).pulse = s.pulse := rfl
@[simp] theorem configure_ecnt (s : State) : (configure s).ecnt = s.ecnt := rfl
@[simp] theorem configure_byte (s : State) : (configure s).byte = s.byte := rfl
@[simp] theorem configure_crc (s : State) : (configure s).crc = s.crc := rfl
@[simp] theorem configure_cmd (s : State) : (configure s).cmd = s.cmd := rfl
@[simp] theorem configure_sp (s : State) : (configure s).sp = s.sp := rfl
@[simp] theorem configure_smp (s : State) : (configure s).smp = s.smp := rfl
@[simp] theorem configure_ch (s : State) : (configure s).ch = 0 := rfl
@[simp] theorem configure_conv (s : State) : (configure s).conv = true := rfl
@[simp] theorem configure_aIm (s : State) : (configure s).aIm = s.aIm := rfl
@[simp] theorem configure_aIl (s : State) : (configure s).aIl = s.aIl := rfl
@[simp] theorem configure_aVm (s : State) : (configure s).aVm = s.aVm := rfl
@[simp] theorem configure_aVl (s : State) : (configure s).aVl = s.aVl := rfl
@[simp] theorem configure_stim (s : State) : (configure s).stim = s.stim := rfl
@[simp] theorem configure_pos (s : State) : (configure s).pos = s.pos := rfl

/-! ## resetBlock -/

@[simp] theorem resetBlock_run (s : State) : (resetBlock s).run = State.reset.run := rfl
@[simp] theorem resetBlock_lph (s : State) : (resetBlock s).lph = State.reset.lph := rfl
@[simp] theorem resetBlock_per1 (s : State) : (resetBlock s).per1 = State.reset.per1 := rfl
@[simp] theorem resetBlock_per2 (s : State) : (resetBlock s).per2 = State.reset.per2 := rfl
@[simp] theorem resetBlock_cnt1 (s : State) : (resetBlock s).cnt1 = State.reset.cnt1 := rfl
@[simp] theorem resetBlock_cnt2 (s : State) : (resetBlock s).cnt2 = State.reset.cnt2 := rfl
@[simp] theorem resetBlock_duty1 (s : State) : (resetBlock s).duty1 = State.reset.duty1 := rfl
@[simp] theorem resetBlock_duty2 (s : State) : (resetBlock s).duty2 = State.reset.duty2 := rfl
@[simp] theorem resetBlock_pulse (s : State) : (resetBlock s).pulse = State.reset.pulse := rfl
@[simp] theorem resetBlock_ecnt (s : State) : (resetBlock s).ecnt = State.reset.ecnt := rfl
@[simp] theorem resetBlock_byte (s : State) : (resetBlock s).byte = State.reset.byte := rfl
@[simp] theorem resetBlock_crc (s : State) : (resetBlock s).crc = State.reset.crc := rfl
@[simp] theorem resetBlock_cmd (s : State) : (resetBlock s).cmd = State.reset.cmd := rfl
@[simp] theorem resetBlock_sp (s : State) : (resetBlock s).sp = State.reset.sp := rfl
@[simp] theorem resetBlock_smp (s : State) : (resetBlock s).smp = State.reset.smp := rfl
@[simp] theorem resetBlock_ch (s : State) : (resetBlock s).ch = State.reset.ch := rfl
@[simp] theorem resetBlock_conv (s : State) : (resetBlock s).conv = State.reset.conv := rfl
@[simp] theorem resetBlock_aIm (s : State) : (resetBlock s).aIm = State.reset.aIm := rfl
@[simp] theorem resetBlock_aIl (s : State) : (resetBlock s).aIl = State.reset.aIl := rfl
@[simp] theorem resetBlock_aVm (s : State) : (resetBlock s).aVm = State.reset.aVm := rfl
@[simp] theorem resetBlock_aVl (s : State) : (resetBlock s).aVl = State.reset.aVl := rfl
@[simp] theorem resetBlock_stim (s : State) : (resetBlock s).stim = s.stim := rfl
@[simp] theorem resetBlock_pos (s : State) : (resetBlock s).pos = s.pos := rfl

/-! ## countTimers -/

@[simp] theorem countTimers_run (s : State) : (countTimers s).run = s.run := rfl
@[simp] theorem countTimers_lph (s : State) : (countTimers s).lph = s.lph := rfl
@[simp] theorem countTimers_per1 (s : State) : (countTimers s).per1 = s.per1 := rfl
@[simp] theorem countTimers_per2 (s : State) : (countTimers s).per2 = s.per2 := rfl
@[simp] theorem countTimers_cnt1 (s : State) : (countTimers s).cnt1 = countUp s.per1 s.cnt1 := rfl
@[simp] theorem countTimers_cnt2 (s : State) : (countTimers s).cnt2 = countUp s.per2 s.cnt2 := rfl
@[simp] theorem countTimers_duty1 (s : State) : (countTimers s).duty1 = s.duty1 := rfl
@[simp] theorem countTimers_duty2 (s : State) : (countTimers s).duty2 = s.duty2 := rfl
@[simp] theorem countTimers_pulse (s : State) : (countTimers s).pulse = s.pulse := rfl
@[simp] theorem countTimers_ecnt (s : State) : (countTimers s).ecnt = s.ecnt := rfl
@[simp] theorem countTimers_byte (s : State) : (countTimers s).byte = s.byte := rfl
@[simp] theorem countTimers_crc (s : State) : (countTimers s).crc = s.crc := rfl
@[simp] theorem countTimers_cmd (s : State) : (countTimers s).cmd = s.cmd := rfl
@[simp] theorem countTimers_sp (s : State) : (countTimers s).sp = s.sp := rfl
@[simp] theorem countTimers_smp (s : State) : (countTimers s).smp = s.smp := rfl
@[simp] theorem countTimers_ch (s : State) : (countTimers s).ch = s.ch := rfl
@[simp] theorem countTimers_conv (s : State) : (countTimers s).conv = s.conv := rfl
@[simp] theorem countTimers_aIm (s : State) : (countTimers s).aIm = s.aIm := rfl
@[simp] theorem countTimers_aIl (s : State) : (countTimers s).aIl = s.aIl := rfl
@[simp] theorem countTimers_aVm (s : State) : (countTimers s).aVm = s.aVm := rfl
@[simp] theorem countTimers_aVl (s : State) : (countTimers s).aVl = s.aVl := rfl
@[simp] theorem countTimers_stim (s : State) : (countTimers s).stim = s.stim := rfl
@[simp] theorem countTimers_pos (s : State) : (countTimers s).pos = s.pos := rfl

/-! ## tickAction -/

@[simp] theorem tickAction_run (s : State) : (tickAction s).run = s.run := rfl
@[simp] theorem tickAction_lph (s : State) : (tickAction s).lph = s.lph := rfl
@[simp] theorem tickAction_per1 (s : State) : (tickAction s).per1 = s.per1 := rfl
@[simp] theorem tickAction_per2 (s : State) : (tickAction s).per2 = s.per2 := rfl
@[simp] theorem tickAction_cnt1 (s : State) : (tickAction s).cnt1 = s.cnt1 := rfl
@[simp] theorem tickAction_cnt2 (s : State) : (tickAction s).cnt2 = s.cnt2 := rfl
@[simp] theorem tickAction_duty1 (s : State) : (tickAction s).duty1 = s.duty1 := rfl
@[simp] theorem tickAction_duty2 (s : State) : (tickAction s).duty2 = s.duty2 := rfl
@[simp] theorem tickAction_pulse (s : State) : (tickAction s).pulse = satInc s.pulse := rfl
@[simp] theorem tickAction_ecnt (s : State) : (tickAction s).ecnt = s.ecnt := rfl
@[simp] theorem tickAction_byte (s : State) : (tickAction s).byte = s.byte := rfl
@[simp] theorem tickAction_crc (s : State) : (tickAction s).crc = s.crc := rfl
@[simp] theorem tickAction_cmd (s : State) : (tickAction s).cmd = s.cmd := rfl
@[simp] theorem tickAction_sp (s : State) : (tickAction s).sp = s.sp := rfl
@[simp] theorem tickAction_smp (s : State) : (tickAction s).smp = s.smp := rfl
@[simp] theorem tickAction_ch (s : State) : (tickAction s).ch = s.ch := rfl
@[simp] theorem tickAction_conv (s : State) : (tickAction s).conv = s.conv := rfl
@[simp] theorem tickAction_aIm (s : State) : (tickAction s).aIm = s.aIm := rfl
@[simp] theorem tickAction_aIl (s : State) : (tickAction s).aIl = s.aIl := rfl
@[simp] theorem tickAction_aVm (s : State) : (tickAction s).aVm = s.aVm := rfl
@[simp] theorem tickAction_aVl (s : State) : (tickAction s).aVl = s.aVl := rfl
@[simp] theorem tickAction_stim (s : State) : (tickAction s).stim = s.stim := rfl
@[simp] theorem tickAction_pos (s : State) : (tickAction s).pos = s.pos := rfl

/-! ## edgeRestart -/

@[simp] theorem edgeRestart_run (s : State) : (edgeRestart s).run = s.run := rfl
@[simp] theorem edgeRestart_lph (s : State) : (edgeRestart s).lph = s.lph := rfl
@[simp] theorem edgeRestart_per1 (s : State) : (edgeRestart s).per1 = s.per1 := rfl
@[simp] theorem edgeRestart_per2 (s : State) : (edgeRestart s).per2 = s.per2 := rfl
@[simp] theorem edgeRestart_cnt1 (s : State) : (edgeRestart s).cnt1 = s.cnt1 := rfl
@[simp] theorem edgeRestart_cnt2 (s : State) : (edgeRestart s).cnt2 = s.cnt2 := rfl
@[simp] theorem edgeRestart_duty1 (s : State) : (edgeRestart s).duty1 = s.duty1 := rfl
@[simp] theorem edgeRestart_duty2 (s : State) : (edgeRestart s).duty2 = s.duty2 := rfl
@[simp] theorem edgeRestart_pulse (s : State) : (edgeRestart s).pulse = 0 := rfl
@[simp] theorem edgeRestart_ecnt (s : State) : (edgeRestart s).ecnt = s.ecnt := rfl
@[simp] theorem edgeRestart_byte (s : State) : (edgeRestart s).byte = s.byte := rfl
@[simp] theorem edgeRestart_crc (s : State) : (edgeRestart s).crc = s.crc := rfl
@[simp] theorem edgeRestart_cmd (s : State) : (edgeRestart s).cmd = s.cmd := rfl
@[simp] theorem edgeRestart_sp (s : State) : (edgeRestart s).sp = s.sp := rfl
@[simp] theorem edgeRestart_smp (s : State) : (edgeRestart s).smp = s.smp := rfl
@[simp] theorem edgeRestart_ch (s : State) : (edgeRestart s).ch = s.ch := rfl
@[simp] theorem edgeRestart_conv (s : State) : (edgeRestart s).conv = s.conv := rfl
@[simp] theorem edgeRestart_aIm (s : State) : (edgeRestart s).aIm = s.aIm := rfl
@[simp] theorem edgeRestart_aIl (s : State) : (edgeRestart s).aIl = s.aIl := rfl
@[simp] theorem edgeRestart_aVm (s : State) : (edgeRestart s).aVm = s.aVm := rfl
@[simp] theorem edgeRestart_aVl (s : State) : (edgeRestart s).aVl = s.aVl := rfl
@[simp] theorem edgeRestart_stim (s : State) : (edgeRestart s).stim = s.stim := rfl
@[simp] theorem edgeRestart_pos (s : State) : (edgeRestart s).pos = s.pos := rfl

/-! ## loadIm -/

@[simp] theorem loadIm_run (c : Fin 2) (s : State) : (loadIm c s).run = s.run := rfl
@[simp] theorem loadIm_lph (c : Fin 2) (s : State) : (loadIm c s).lph = s.lph := rfl
@[simp] theorem loadIm_per1 (c : Fin 2) (s : State) : (loadIm c s).per1 = s.per1 := rfl
@[simp] theorem loadIm_per2 (c : Fin 2) (s : State) : (loadIm c s).per2 = s.per2 := rfl
@[simp] theorem loadIm_cnt1 (c : Fin 2) (s : State) : (loadIm c s).cnt1 = s.cnt1 := rfl
@[simp] theorem loadIm_cnt2 (c : Fin 2) (s : State) : (loadIm c s).cnt2 = s.cnt2 := rfl
@[simp] theorem loadIm_duty1 (c : Fin 2) (s : State) : (loadIm c s).duty1 = s.duty1 := rfl
@[simp] theorem loadIm_duty2 (c : Fin 2) (s : State) : (loadIm c s).duty2 = s.duty2 := rfl
@[simp] theorem loadIm_pulse (c : Fin 2) (s : State) : (loadIm c s).pulse = s.pulse := rfl
@[simp] theorem loadIm_ecnt (c : Fin 2) (s : State) : (loadIm c s).ecnt = s.ecnt := rfl
@[simp] theorem loadIm_byte (c : Fin 2) (s : State) : (loadIm c s).byte = s.byte := rfl
@[simp] theorem loadIm_crc (c : Fin 2) (s : State) : (loadIm c s).crc = s.crc := rfl
@[simp] theorem loadIm_cmd (c : Fin 2) (s : State) : (loadIm c s).cmd = s.cmd := rfl
@[simp] theorem loadIm_sp (c : Fin 2) (s : State) : (loadIm c s).sp = s.sp := rfl
@[simp] theorem loadIm_smp (c : Fin 2) (s : State) : (loadIm c s).smp = s.smp := rfl
@[simp] theorem loadIm_ch (c : Fin 2) (s : State) : (loadIm c s).ch = s.ch := rfl
@[simp] theorem loadIm_conv (c : Fin 2) (s : State) : (loadIm c s).conv = s.conv := rfl
@[simp] theorem loadIm_aIm (c : Fin 2) (s : State) : (loadIm c s).aIm = readSample s (currentIndex c) := rfl
@[simp] theorem loadIm_aIl (c : Fin 2) (s : State) : (loadIm c s).aIl = s.aIl := rfl
@[simp] theorem loadIm_aVm (c : Fin 2) (s : State) : (loadIm c s).aVm = s.aVm := rfl
@[simp] theorem loadIm_aVl (c : Fin 2) (s : State) : (loadIm c s).aVl = s.aVl := rfl
@[simp] theorem loadIm_stim (c : Fin 2) (s : State) : (loadIm c s).stim = s.stim := rfl
@[simp] theorem loadIm_pos (c : Fin 2) (s : State) : (loadIm c s).pos = s.pos := rfl

/-! ## loadIl -/

@[simp] theorem loadIl_run (c : Fin 2) (s : State) : (loadIl c s).run = s.run := rfl
@[simp] theorem loadIl_lph (c : Fin 2) (s : State) : (loadIl c s).lph = s.lph := rfl
@[simp] theorem loadIl_per1 (c : Fin 2) (s : State) : (loadIl c s).per1 = s.per1 := rfl
@[simp] theorem loadIl_per2 (c : Fin 2) (s : State) : (loadIl c s).per2 = s.per2 := rfl
@[simp] theorem loadIl_cnt1 (c : Fin 2) (s : State) : (loadIl c s).cnt1 = s.cnt1 := rfl
@[simp] theorem loadIl_cnt2 (c : Fin 2) (s : State) : (loadIl c s).cnt2 = s.cnt2 := rfl
@[simp] theorem loadIl_duty1 (c : Fin 2) (s : State) : (loadIl c s).duty1 = s.duty1 := rfl
@[simp] theorem loadIl_duty2 (c : Fin 2) (s : State) : (loadIl c s).duty2 = s.duty2 := rfl
@[simp] theorem loadIl_pulse (c : Fin 2) (s : State) : (loadIl c s).pulse = s.pulse := rfl
@[simp] theorem loadIl_ecnt (c : Fin 2) (s : State) : (loadIl c s).ecnt = s.ecnt := rfl
@[simp] theorem loadIl_byte (c : Fin 2) (s : State) : (loadIl c s).byte = s.byte := rfl
@[simp] theorem loadIl_crc (c : Fin 2) (s : State) : (loadIl c s).crc = s.crc := rfl
@[simp] theorem loadIl_cmd (c : Fin 2) (s : State) : (loadIl c s).cmd = s.cmd := rfl
@[simp] theorem loadIl_sp (c : Fin 2) (s : State) : (loadIl c s).sp = s.sp := rfl
@[simp] theorem loadIl_smp (c : Fin 2) (s : State) : (loadIl c s).smp = s.smp := rfl
@[simp] theorem loadIl_ch (c : Fin 2) (s : State) : (loadIl c s).ch = s.ch := rfl
@[simp] theorem loadIl_conv (c : Fin 2) (s : State) : (loadIl c s).conv = s.conv := rfl
@[simp] theorem loadIl_aIm (c : Fin 2) (s : State) : (loadIl c s).aIm = s.aIm := rfl
@[simp] theorem loadIl_aIl (c : Fin 2) (s : State) : (loadIl c s).aIl = readSetpoint s (currentIndex c) := rfl
@[simp] theorem loadIl_aVm (c : Fin 2) (s : State) : (loadIl c s).aVm = s.aVm := rfl
@[simp] theorem loadIl_aVl (c : Fin 2) (s : State) : (loadIl c s).aVl = s.aVl := rfl
@[simp] theorem loadIl_stim (c : Fin 2) (s : State) : (loadIl c s).stim = s.stim := rfl
@[simp] theorem loadIl_pos (c : Fin 2) (s : State) : (loadIl c s).pos = s.pos := rfl

/-! ## loadVm -/

@[simp] theorem loadVm_run (c : Fin 2) (s : State) : (loadVm c s).run = s.run := rfl
@[simp] theorem loadVm_lph (c : Fin 2) (s : State) : (loadVm c s).lph = s.lph := rfl
@[simp] theorem loadVm_per1 (c : Fin 2) (s : State) : (loadVm c s).per1 = s.per1 := rfl
@[simp] theorem loadVm_per2 (c : Fin 2) (s : State) : (loadVm c s).per2 = s.per2 := rfl
@[simp] theorem loadVm_cnt1 (c : Fin 2) (s : State) : (loadVm c s).cnt1 = s.cnt1 := rfl
@[simp] theorem loadVm_cnt2 (c : Fin 2) (s : State) : (loadVm c s).cnt2 = s.cnt2 := rfl
@[simp] theorem loadVm_duty1 (c : Fin 2) (s : State) : (loadVm c s).duty1 = s.duty1 := rfl
@[simp] theorem loadVm_duty2 (c : Fin 2) (s : State) : (loadVm c s).duty2 = s.duty2 := rfl
@[simp] theorem loadVm_pulse (c : Fin 2) (s : State) : (loadVm c s).pulse = s.pulse := rfl
@[simp] theorem loadVm_ecnt (c : Fin 2) (s : State) : (loadVm c s).ecnt = s.ecnt := rfl
@[simp] theorem loadVm_byte (c : Fin 2) (s : State) : (loadVm c s).byte = s.byte := rfl
@[simp] theorem loadVm_crc (c : Fin 2) (s : State) : (loadVm c s).crc = s.crc := rfl
@[simp] theorem loadVm_cmd (c : Fin 2) (s : State) : (loadVm c s).cmd = s.cmd := rfl
@[simp] theorem loadVm_sp (c : Fin 2) (s : State) : (loadVm c s).sp = s.sp := rfl
@[simp] theorem loadVm_smp (c : Fin 2) (s : State) : (loadVm c s).smp = s.smp := rfl
@[simp] theorem loadVm_ch (c : Fin 2) (s : State) : (loadVm c s).ch = s.ch := rfl
@[simp] theorem loadVm_conv (c : Fin 2) (s : State) : (loadVm c s).conv = s.conv := rfl
@[simp] theorem loadVm_aIm (c : Fin 2) (s : State) : (loadVm c s).aIm = s.aIm := rfl
@[simp] theorem loadVm_aIl (c : Fin 2) (s : State) : (loadVm c s).aIl = s.aIl := rfl
@[simp] theorem loadVm_aVm (c : Fin 2) (s : State) : (loadVm c s).aVm = readSample s (voltageIndex c) := rfl
@[simp] theorem loadVm_aVl (c : Fin 2) (s : State) : (loadVm c s).aVl = s.aVl := rfl
@[simp] theorem loadVm_stim (c : Fin 2) (s : State) : (loadVm c s).stim = s.stim := rfl
@[simp] theorem loadVm_pos (c : Fin 2) (s : State) : (loadVm c s).pos = s.pos := rfl

/-! ## loadVl -/

@[simp] theorem loadVl_run (c : Fin 2) (s : State) : (loadVl c s).run = s.run := rfl
@[simp] theorem loadVl_lph (c : Fin 2) (s : State) : (loadVl c s).lph = s.lph := rfl
@[simp] theorem loadVl_per1 (c : Fin 2) (s : State) : (loadVl c s).per1 = s.per1 := rfl
@[simp] theorem loadVl_per2 (c : Fin 2) (s : State) : (loadVl c s).per2 = s.per2 := rfl
@[simp] theorem loadVl_cnt1 (c : Fin 2) (s : State) : (loadVl c s).cnt1 = s.cnt1 := rfl
@[simp] theorem loadVl_cnt2 (c : Fin 2) (s : State) : (loadVl c s).cnt2 = s.cnt2 := rfl
@[simp] theorem loadVl_duty1 (c : Fin 2) (s : State) : (loadVl c s).duty1 = s.duty1 := rfl
@[simp] theorem loadVl_duty2 (c : Fin 2) (s : State) : (loadVl c s).duty2 = s.duty2 := rfl
@[simp] theorem loadVl_pulse (c : Fin 2) (s : State) : (loadVl c s).pulse = s.pulse := rfl
@[simp] theorem loadVl_ecnt (c : Fin 2) (s : State) : (loadVl c s).ecnt = s.ecnt := rfl
@[simp] theorem loadVl_byte (c : Fin 2) (s : State) : (loadVl c s).byte = s.byte := rfl
@[simp] theorem loadVl_crc (c : Fin 2) (s : State) : (loadVl c s).crc = s.crc := rfl
@[simp] theorem loadVl_cmd (c : Fin 2) (s : State) : (loadVl c s).cmd = s.cmd := rfl
@[simp] theorem loadVl_sp (c : Fin 2) (s : State) : (loadVl c s).sp = s.sp := rfl
@[simp] theorem loadVl_smp (c : Fin 2) (s : State) : (loadVl c s).smp = s.smp := rfl
@[simp] theorem loadVl_ch (c : Fin 2) (s : State) : (loadVl c s).ch = s.ch := rfl
@[simp] theorem loadVl_conv (c : Fin 2) (s : State) : (loadVl c s).conv = s.conv := rfl
@[simp] theorem loadVl_aIm (c : Fin 2) (s : State) : (loadVl c s).aIm = s.aIm := rfl
@[simp] theorem loadVl_aIl (c : Fin 2) (s : State) : (loadVl c s).aIl = s.aIl := rfl
@[simp] theorem loadVl_aVm (c : Fin 2) (s : State) : (loadVl c s).aVm = s.aVm := rfl
@[simp] theorem loadVl_aVl (c : Fin 2) (s : State) : (loadVl c s).aVl = readSetpoint s (voltageIndex c) := rfl
@[simp] theorem loadVl_stim (c : Fin 2) (s : State) : (loadVl c s).stim = s.stim := rfl
@[simp] theorem loadVl_pos (c : Fin 2) (s : State) : (loadVl c s).pos = s.pos := rfl

/-! ## adjustDuty1 -/

@[simp] theorem adjustDuty1_run (s : State) : (adjustDuty1 s).run = s.run := rfl
@[simp] theorem adjustDuty1_lph (s : State) : (adjustDuty1 s).lph = s.lph := rfl
@[simp] theorem adjustDuty1_per1 (s : State) : (adjustDuty1 s).per1 = s.per1 := rfl
@[simp] theorem adjustDuty1_per2 (s : State) : (adjustDuty1 s).per2 = s.per2 := rfl
@[simp] theorem adjustDuty1_cnt1 (s : State) : (adjustDuty1 s).cnt1 = s.cnt1 := rfl
@[simp] theorem adjustDuty1_cnt2 (s : State) : (adjustDuty1 s).cnt2 = s.cnt2 := rfl
@[simp] theorem adjustDuty1_duty1 (s : State) : (adjustDuty1 s).duty1 = adjust Config.period s.duty1 s.aIm s.aIl s.aVm s.aVl := rfl
@[simp] theorem adjustDuty1_duty2 (s : State) : (adjustDuty1 s).duty2 = s.duty2 := rfl
@[simp] theorem adjustDuty1_pulse (s : State) : (adjustDuty1 s).pulse = s.pulse := rfl
@[simp] theorem adjustDuty1_ecnt (s : State) : (adjustDuty1 s).ecnt = s.ecnt := rfl
@[simp] theorem adjustDuty1_byte (s : State) : (adjustDuty1 s).byte = s.byte := rfl
@[simp] theorem adjustDuty1_crc (s : State) : (adjustDuty1 s).crc = s.crc := rfl
@[simp] theorem adjustDuty1_cmd (s : State) : (adjustDuty1 s).cmd = s.cmd := rfl
@[simp] theorem adjustDuty1_sp (s : State) : (adjustDuty1 s).sp = s.sp := rfl
@[simp] theorem adjustDuty1_smp (s : State) : (adjustDuty1 s).smp = s.smp := rfl
@[simp] theorem adjustDuty1_ch (s : State) : (adjustDuty1 s).ch = s.ch := rfl
@[simp] theorem adjustDuty1_conv (s : State) : (adjustDuty1 s).conv = s.conv := rfl
@[simp] theorem adjustDuty1_aIm (s : State) : (adjustDuty1 s).aIm = s.aIm := rfl
@[simp] theorem adjustDuty1_aIl (s : State) : (adjustDuty1 s).aIl = s.aIl := rfl
@[simp] theorem adjustDuty1_aVm (s : State) : (adjustDuty1 s).aVm = s.aVm := rfl
@[simp] theorem adjustDuty1_aVl (s : State) : (adjustDuty1 s).aVl = s.aVl := rfl
@[simp] theorem adjustDuty1_stim (s : State) : (adjustDuty1 s).stim = s.stim := rfl
@[simp] theorem adjustDuty1_pos (s : State) : (adjustDuty1 s).pos = s.pos := rfl

/-! ## adjustDuty2 -/

@[simp] theorem adjustDuty2_run (s : State) : (adjustDuty2 s).run = s.run := rfl
@[simp] theorem adjustDuty2_lph (s : State) : (adjustDuty2 s).lph = s.lph := rfl
@[simp] theorem adjustDuty2_per1 (s : State) : (adjustDuty2 s).per1 = s.per1 := rfl
@[simp] theorem adjustDuty2_per2 (s : State) : (adjustDuty2 s).per2 = s.per2 := rfl
@[simp] theorem adjustDuty2_cnt1 (s : State) : (adjustDuty2 s).cnt1 = s.cnt1 := rfl
@[simp] theorem adjustDuty2_cnt2 (s : State) : (adjustDuty2 s).cnt2 = s.cnt2 := rfl
@[simp] theorem adjustDuty2_duty1 (s : State) : (adjustDuty2 s).duty1 = s.duty1 := rfl
@[simp] theorem adjustDuty2_duty2 (s : State) : (adjustDuty2 s).duty2 = adjust Config.period s.duty2 s.aIm s.aIl s.aVm s.aVl := rfl
@[simp] theorem adjustDuty2_pulse (s : State) : (adjustDuty2 s).pulse = s.pulse := rfl
@[simp] theorem adjustDuty2_ecnt (s : State) : (adjustDuty2 s).ecnt = s.ecnt := rfl
@[simp] theorem adjustDuty2_byte (s : State) : (adjustDuty2 s).byte = s.byte := rfl
@[simp] theorem adjustDuty2_crc (s : State) : (adjustDuty2 s).crc = s.crc := rfl
@[simp] theorem adjustDuty2_cmd (s : State) : (adjustDuty2 s).cmd = s.cmd := rfl
@[simp] theorem adjustDuty2_sp (s : State) : (adjustDuty2 s).sp = s.sp := rfl
@[simp] theorem adjustDuty2_smp (s : State) : (adjustDuty2 s).smp = s.smp := rfl
@[simp] theorem adjustDuty2_ch (s : State) : (adjustDuty2 s).ch = s.ch := rfl
@[simp] theorem adjustDuty2_conv (s : State) : (adjustDuty2 s).conv = s.conv := rfl
@[simp] theorem adjustDuty2_aIm (s : State) : (adjustDuty2 s).aIm = s.aIm := rfl
@[simp] theorem adjustDuty2_aIl (s : State) : (adjustDuty2 s).aIl = s.aIl := rfl
@[simp] theorem adjustDuty2_aVm (s : State) : (adjustDuty2 s).aVm = s.aVm := rfl
@[simp] theorem adjustDuty2_aVl (s : State) : (adjustDuty2 s).aVl = s.aVl := rfl
@[simp] theorem adjustDuty2_stim (s : State) : (adjustDuty2 s).stim = s.stim := rfl
@[simp] theorem adjustDuty2_pos (s : State) : (adjustDuty2 s).pos = s.pos := rfl

/-! ## advancePhase -/

@[simp] theorem advancePhase_run (s : State) : (advancePhase s).run = s.run := rfl
@[simp] theorem advancePhase_lph (s : State) : (advancePhase s).lph = nextPhase s.lph := rfl
@[simp] theorem advancePhase_per1 (s : State) : (advancePhase s).per1 = s.per1 := rfl
@[simp] theorem advancePhase_per2 (s : State) : (advancePhase s).per2 = s.per2 := rfl
@[simp] theorem advancePhase_cnt1 (s : State) : (advancePhase s).cnt1 = s.cnt1 := rfl
@[simp] theorem advancePhase_cnt2 (s : State) : (advancePhase s).cnt2 = s.cnt2 := rfl
@[simp] theorem advancePhase_duty1 (s : State) : (advancePhase s).duty1 = s.duty1 := rfl
@[simp] theorem advancePhase_duty2 (s : State) : (advancePhase s).duty2 = s.duty2 := rfl
@[simp] theorem advancePhase_pulse (s : State) : (advancePhase s).pulse = s.pulse := rfl
@[simp] theorem advancePhase_ecnt (s : State) : (advancePhase s).ecnt = s.ecnt := rfl
@[simp] theorem advancePhase_byte (s : State) : (advancePhase s).byte = s.byte := rfl
@[simp] theorem advancePhase_crc (s : State) : (advancePhase s).crc = s.crc := rfl
@[simp] theorem advancePhase_cmd (s : State) : (advancePhase s).cmd = s.cmd := rfl
@[simp] theorem advancePhase_sp (s : State) : (advancePhase s).sp = s.sp := rfl
@[simp] theorem advancePhase_smp (s : State) : (advancePhase s).smp = s.smp := rfl
@[simp] theorem advancePhase_ch (s : State) : (advancePhase s).ch = s.ch := rfl
@[simp] theorem advancePhase_conv (s : State) : (advancePhase s).conv = s.conv := rfl
@[simp] theorem advancePhase_aIm (s : State) : (advancePhase s).aIm = s.aIm := rfl
@[simp] theorem advancePhase_aIl (s : State) : (advancePhase s).aIl = s.aIl := rfl
@[simp] theorem advancePhase_aVm (s : State) : (advancePhase s).aVm = s.aVm := rfl
@[simp] theorem advancePhase_aVl (s : State) : (advancePhase s).aVl = s.aVl := rfl
@[simp] theorem advancePhase_stim (s : State) : (advancePhase s).stim = s.stim := rfl
@[simp] theorem advancePhase_pos (s : State) : (advancePhase s).pos = s.pos := rfl

/-! ## takeWord -/

@[simp] theorem takeWord_run (s : State) (rest : List Byte) : (takeWord s rest).run = s.run := rfl
@[simp] theorem takeWord_lph (s : State) (rest : List Byte) : (takeWord s rest).lph = s.lph := rfl
@[simp] theorem takeWord_per1 (s : State) (rest : List Byte) : (takeWord s rest).per1 = s.per1 := rfl
@[simp] theorem takeWord_per2 (s : State) (rest : List Byte) : (takeWord s rest).per2 = s.per2 := rfl
@[simp] theorem takeWord_cnt1 (s : State) (rest : List Byte) : (takeWord s rest).cnt1 = s.cnt1 := rfl
@[simp] theorem takeWord_cnt2 (s : State) (rest : List Byte) : (takeWord s rest).cnt2 = s.cnt2 := rfl
@[simp] theorem takeWord_duty1 (s : State) (rest : List Byte) : (takeWord s rest).duty1 = s.duty1 := rfl
@[simp] theorem takeWord_duty2 (s : State) (rest : List Byte) : (takeWord s rest).duty2 = s.duty2 := rfl
@[simp] theorem takeWord_pulse (s : State) (rest : List Byte) : (takeWord s rest).pulse = s.pulse := rfl
@[simp] theorem takeWord_ecnt (s : State) (rest : List Byte) : (takeWord s rest).ecnt = s.ecnt := rfl
@[simp] theorem takeWord_byte (s : State) (rest : List Byte) : (takeWord s rest).byte = s.byte := rfl
@[simp] theorem takeWord_crc (s : State) (rest : List Byte) : (takeWord s rest).crc = s.crc := rfl
@[simp] theorem takeWord_cmd (s : State) (rest : List Byte) : (takeWord s rest).cmd = s.cmd := rfl
@[simp] theorem takeWord_sp (s : State) (rest : List Byte) : (takeWord s rest).sp = s.sp := rfl
@[simp] theorem takeWord_smp (s : State) (rest : List Byte) : (takeWord s rest).smp = s.smp := rfl
@[simp] theorem takeWord_ch (s : State) (rest : List Byte) : (takeWord s rest).ch = s.ch := rfl
@[simp] theorem takeWord_conv (s : State) (rest : List Byte) : (takeWord s rest).conv = s.conv := rfl
@[simp] theorem takeWord_aIm (s : State) (rest : List Byte) : (takeWord s rest).aIm = s.aIm := rfl
@[simp] theorem takeWord_aIl (s : State) (rest : List Byte) : (takeWord s rest).aIl = s.aIl := rfl
@[simp] theorem takeWord_aVm (s : State) (rest : List Byte) : (takeWord s rest).aVm = s.aVm := rfl
@[simp] theorem takeWord_aVl (s : State) (rest : List Byte) : (takeWord s rest).aVl = s.aVl := rfl
@[simp] theorem takeWord_stim (s : State) (rest : List Byte) : (takeWord s rest).stim = rest := rfl
@[simp] theorem takeWord_pos (s : State) (rest : List Byte) : (takeWord s rest).pos = s.pos + 1 := rfl

end Sys2Proof.Machine
end

