-- ==== Sys2Proof/Laws/Ops.lean ====
section
/-! SUPPORT. The shared operations: what the RUN gate and an interrupt answer, what exec can answer with a next state, how runs of
operations compose, and the byte view of the data space. -/

namespace Sys2Proof.Machine

/-! ## The RUN gate -/

@[simp] theorem whenRunning_of_run {s : State} (h : s.run = true) (f : State → State) :
    whenRunning s f = .next (f s) := by simp [whenRunning, h]

@[simp] theorem whenRunning_of_not_run {s : State} (h : s.run = false) (f : State → State) :
    whenRunning s f = .next s := by simp [whenRunning, h]

/-- The gate always answers a next state: the effect, or the same state. -/
theorem whenRunning_next (s : State) (f : State → State) :
    whenRunning s f = .next (if s.run then f s else s) := by
  cases h : s.run <;> simp [h]

theorem takeInterrupt_next (s : State) (f : State → State) :
    takeInterrupt s f = .next (if s.run then f s else s) := whenRunning_next s f

/-! ## exec -/

/-- The state an operation leads to where it has one: the effect of its meaning as a function. -/
def effectOf (i : Instr) (s : State) : State :=
  match i with
  | .idle => s
  | .reset => resetBlock s
  | .init => configure s
  | .clk => if s.run then clkAction s else s
  | .tick => if s.run then tickAction s else s
  | .edge => if s.run then edgeAction s else s
  | .adcdone r => if s.run then sampleAction r s else s
  | .lstep => if s.run then loopAction s else s

/-- Everything exec can answer: the refusal of a second INIT, or the effect. -/
theorem exec_eq (i : Instr) (s : State) :
    exec i s = if i = .init ∧ s.run = true then .refused .initWhileRunning else .next (effectOf i s) := by
  cases i with
  | init =>
    cases h : s.run
    · rw [if_neg (by simp)]; simp only [exec, execInit, h, effectOf]; rfl
    · rw [if_pos (by simp)]; simp only [exec, execInit, h]; rfl
  | idle => rw [if_neg (by simp)]; rfl
  | reset => rw [if_neg (by simp)]; rfl
  | clk => rw [if_neg (by simp)]; exact whenRunning_next s _
  | tick => rw [if_neg (by simp)]; exact takeInterrupt_next s _
  | edge => rw [if_neg (by simp)]; exact takeInterrupt_next s _
  | adcdone r => rw [if_neg (by simp)]; exact takeInterrupt_next s _
  | lstep => rw [if_neg (by simp)]; exact whenRunning_next s _

/-- The inversion of exec: a next state is the effect, and the operation was not a refused INIT. -/
theorem exec_next_iff (i : Instr) (s t : State) :
    exec i s = .next t ↔ ¬ (i = .init ∧ s.run = true) ∧ t = effectOf i s := by
  rw [exec_eq]
  split <;> rename_i h
  · exact ⟨nofun, fun k => absurd h k.1⟩
  · exact ⟨fun k => ⟨h, (Host.Outcome.next.inj k).symm⟩, fun k => by rw [k.2]⟩

/-! ## Runs of operations -/

@[simp] theorem runOps_nil (s : State) : runOps [] s = .next s := rfl

theorem runOps_cons_of_next {i : Instr} {s t : State} (h : exec i s = .next t) (ops : List Instr) :
    runOps (i :: ops) s = runOps ops t := by simp [runOps, h]

theorem runOps_append_of_next {xs : List Instr} {s t : State} (h : runOps xs s = .next t) (ys : List Instr) :
    runOps (xs ++ ys) s = runOps ys t := by
  induction xs generalizing s with
  | nil => simp_all
  | cons i xs ih =>
    simp only [List.cons_append, runOps] at h ⊢
    cases hi : exec i s with
    | next u => simp only [hi] at h ⊢; exact ih h
    | fault r => simp [hi] at h
    | refused r => simp [hi] at h

/-- The first n + 1 operations are the first n and one more. -/
theorem firstOps_succ (ops : Nat → Instr) (n : Nat) : firstOps ops (n + 1) = firstOps ops n ++ [ops n] := by
  simp [firstOps, List.range_succ]

/-- The n-th state of an infinite execution is where its first n operations lead. -/
theorem InfiniteExecution.runOps_firstOps {s : State} {ops : Nat → Instr} {states : Nat → State}
    (h : InfiniteExecution s ops states) (n : Nat) : runOps (firstOps ops n) s = .next (states n) := by
  induction n with
  | zero => rw [h.1]; rfl
  | succ n ih => rw [firstOps_succ, runOps_append_of_next ih, runOps_cons_of_next (h.2 n), runOps_nil]

/-! ## The byte view -/

@[simp] theorem image_length (s : State) : (image s).length = dataSpaceSize := by
  simp [image, dataSpaceSize, Config.nsamp, Config.frameBytes]

/-- Outside the data space the view is 0; the primitive refuses there (R63). -/
theorem byteAt_of_ge (s : State) {a : Nat} (h : 48 ≤ a) : byteAt s a = 0 := by
  have hl := image_length s
  simp only [byteAt, List.getD_eq_getElem?_getD]
  rw [List.getElem?_eq_none (by simp only [hl, dataSpaceSize]; exact h)]
  rfl

/-- The view depends on nothing but the components of R20. -/
theorem byteAt_congr {s t : State} (h : image s = image t) (a : Nat) : byteAt s a = byteAt t a := by
  simp [byteAt, h]

theorem memRead1_of_lt (s : State) {a : Nat} (h : a < 48) : memRead1 s a = .ok (byteAt s a) := by
  simp [memRead1, dataSpaceSize, h]

/-! ## The list of cells -/

theorem cellAt_fst {s : State} {a : Nat} {c : Host.Cell} (h : cellAt s a = some c) : c.1 = a := by
  unfold cellAt at h
  split at h
  · cases h
  · cases h; rfl

theorem cellAt_snd_ne {s : State} {a : Nat} {c : Host.Cell} (h : cellAt s a = some c) : c.2 ≠ unlistedByte := by
  unfold cellAt at h
  split at h
  · cases h
  · rename_i hne; cases h; exact hne

/-- Addresses rise in any list of cells taken from rising addresses. -/
theorem filterMap_cellAt_pairwise (s : State) {as : List Nat} (h : as.Pairwise (· < ·)) :
    (as.filterMap (cellAt s)).Pairwise (fun c d => c.1 < d.1) := by
  rw [List.pairwise_filterMap]
  refine h.imp ?_
  intro a b hab c hc d hd
  rw [cellAt_fst hc, cellAt_fst hd]
  exact hab

/-- The list of cells has the canonical form in every state, so every operation keeps it. -/
theorem cells_wf (s : State) : Memory.wf (cells s) = true := by
  simp only [Memory.wf, Bool.and_eq_true, decide_eq_true_eq, List.all_eq_true]
  refine ⟨filterMap_cellAt_pairwise s List.pairwise_lt_range, ?_⟩
  intro c hc
  obtain ⟨a, ha, hca⟩ := List.mem_filterMap.mp hc
  rw [cellAt_fst hca]
  exact ⟨by simpa using ha, cellAt_snd_ne hca⟩

/-- Every step keeps the canonical form of the data space. -/
theorem step_keeps_cells_wf (s t : State) (_h : step s = .next t) : Memory.wf (cells t) = true := cells_wf t

end Sys2Proof.Machine
end

