-- ==== Sys2Proof/Laws/Edge.lean ====
section
/-! SUPPORT. The steps of an EDGE (R197): what each can do, and the fields none of them touches. -/

namespace Sys2Proof.Machine

/-- What a step of the decoder leaves alone: everything but PULSE, ECNT, BYTE, CRC, CMD and SP (R38's EDGE column). -/
def OnlyDecoder (s t : State) : Prop :=
  t = { s with pulse := t.pulse, ecnt := t.ecnt, byte := t.byte, crc := t.crc, cmd := t.cmd, sp := t.sp }

theorem OnlyDecoder.trans {s t u : State} (h : OnlyDecoder s t) (k : OnlyDecoder t u) : OnlyDecoder s u := by
  unfold OnlyDecoder at *
  rw [k, h]

theorem edgeResync_only (p : Byte) (s : State) : OnlyDecoder s (edgeResync p s) := by
  unfold edgeResync OnlyDecoder; split <;> rfl

theorem edgeShift_only (q : Bool) (p : Byte) (s : State) : OnlyDecoder s (edgeShift q p s) := by
  unfold edgeShift OnlyDecoder; split <;> rfl

theorem edgeRestart_only (s : State) : OnlyDecoder s (edgeRestart s) := rfl

theorem edgeByte_only (s : State) : OnlyDecoder s (edgeByte s) := by
  unfold edgeByte OnlyDecoder; split <;> rfl

theorem edgeFrame_only (c : Bool) (s : State) : OnlyDecoder s (edgeFrame c s) := by
  unfold edgeFrame OnlyDecoder; split <;> rfl

/-- The whole action touches nothing outside the decoder, under either reading of C1 and C2. -/
theorem edgeActionWith_only (q c : Bool) (s : State) : OnlyDecoder s (edgeActionWith q c s) :=
  (((edgeResync_only _ s).trans (edgeShift_only _ _ _)).trans (edgeRestart_only _)).trans (edgeByte_only _)
    |>.trans (edgeFrame_only _ _)

/-- Before step 6 the edge count has not moved but for the resync clear. -/
theorem edgeByte_ecnt (s : State) : (edgeByte s).ecnt = s.ecnt := by unfold edgeByte; split <;> rfl

theorem edgeShift_ecnt (q : Bool) (p : Byte) (s : State) : (edgeShift q p s).ecnt = s.ecnt := by
  unfold edgeShift; split <;> rfl

theorem edgeShift_crc (q : Bool) (p : Byte) (s : State) : (edgeShift q p s).crc = s.crc := by
  unfold edgeShift; split <;> rfl

theorem edgeShift_cmd (q : Bool) (p : Byte) (s : State) : (edgeShift q p s).cmd = s.cmd := by
  unfold edgeShift; split <;> rfl

theorem edgeShift_sp (q : Bool) (p : Byte) (s : State) : (edgeShift q p s).sp = s.sp := by
  unfold edgeShift; split <;> rfl

theorem edgeResync_sp (p : Byte) (s : State) : (edgeResync p s).sp = s.sp := by
  unfold edgeResync; split <;> rfl

theorem edgeResync_cmd (p : Byte) (s : State) : (edgeResync p s).cmd = s.cmd := by
  unfold edgeResync; split <;> rfl

theorem edgeResync_byte (p : Byte) (s : State) : (edgeResync p s).byte = s.byte := by
  unfold edgeResync; split <;> rfl

/-- Without a saturated interval step 1 does nothing. -/
theorem edgeResync_of_ne {p : Byte} (h : p ≠ Config.sat) (s : State) : edgeResync p s = s := by
  simp [edgeResync, h]

theorem edgeShift_of_data {q : Bool} {s : State} (h : dataEdge q s.ecnt) (p : Byte) :
    edgeShift q p s = { s with byte := shiftIn s.byte (bitOf p) } := if_pos h

theorem edgeShift_of_clock {q : Bool} {s : State} (h : ¬ dataEdge q s.ecnt) (p : Byte) :
    edgeShift q p s = s := if_neg h

theorem edgeByte_of_done {s : State} (h : byteDone s.ecnt) :
    edgeByte s =
      { s with cmd := s.cmd.setIfInBounds (byteIndex s.ecnt) s.byte, crc := s.crc ^^^ s.byte } := if_pos h

theorem edgeByte_of_not_done {s : State} (h : ¬ byteDone s.ecnt) : edgeByte s = s := if_neg h

theorem edgeFrame_of_done {s : State} (h : frameDone s.ecnt) :
    edgeFrame true s =
      { s with sp := if frameValid s.crc then s.cmd else s.sp, crc := 0, ecnt := 0 } := if_pos h

theorem edgeFrame_of_not_done {c : Bool} {s : State} (h : ¬ frameDone s.ecnt) :
    edgeFrame c s = { s with ecnt := BitVec.ofNat 8 (s.ecnt.toNat + 1) } := if_neg h

/-- A frame ends on a byte end (R202, R204). -/
theorem byteDone_of_frameDone {ecnt : Byte} (h : frameDone ecnt) : byteDone ecnt := by
  simp only [frameDone, Config.frameEdges] at h
  simp only [byteDone, Config.byteEdges]
  omega

/-- The low bit of the edge count is its parity: what `dataEdge` tests. -/
theorem dataEdge_iff (ecnt : Byte) : dataEdge Config.dataParity ecnt ↔ ecnt.toNat % 2 = 1 := by
  revert ecnt
  decide

end Sys2Proof.Machine
end

