-- ==== Sys2Proof/Laws/PerInstr.lean ====
section
/-! SUPPORT. Facts made per operation, about the operation as syntax. -/

namespace Sys2Proof.Laws.EncodingFields

/-- The raw fields of an operation's word are its op code, 0000 and its operand byte, and they are well formed (R101, R102). -/
def Statement (i : Instr) : Prop :=
  i.wf = true ∧ fieldsOf (encode i) = ⟨opcodeOf i, 0, operandOf i⟩ ∧ (fieldsOf (encode i)).wf = true

theorem idle : Statement .idle := by unfold Statement; decide
theorem reset : Statement .reset := by unfold Statement; decide
theorem init : Statement .init := by unfold Statement; decide
theorem clk : Statement .clk := by unfold Statement; decide
theorem tick : Statement .tick := by unfold Statement; decide
theorem edge : Statement .edge := by unfold Statement; decide
theorem lstep : Statement .lstep := by unfold Statement; decide

theorem adcdone (r : Byte) : Statement (.adcdone r) := by
  revert r
  unfold Statement
  decide

end Sys2Proof.Laws.EncodingFields
end

