-- ==== Sys2Proof/Laws/Step.lean ====
section
/-! SUPPORT. The fetch and the step: what step can answer. -/

namespace Sys2Proof.Machine

theorem fetch_of_decode {s : State} {i : Instr} {rest : List Byte} (h : decode s.stim = .ok (i, rest)) :
    fetch s = .ok (i, takeWord s rest) := by simp [fetch, h]

theorem fetch_of_error {s : State} {e : DecodeError} (h : decode s.stim = .error e) :
    fetch s = .error (refusalAt s.pos e) := by simp [fetch, h]

/-- The inversion of step: a next state comes from an operation read from the stimulus, run at the state with its word
taken. -/
theorem step_next {s t : State} (h : step s = .next t) :
    ∃ i rest, decode s.stim = .ok (i, rest) ∧ exec i (takeWord s rest) = .next t := by
  unfold step at h
  cases hd : decode s.stim with
  | ok p =>
    obtain ⟨i, rest⟩ := p
    rw [fetch_of_decode hd] at h
    exact ⟨i, rest, rfl, h⟩
  | error e => simp [fetch_of_error hd] at h

end Sys2Proof.Machine
end

