-- ==== Sys2Proof/Machine/Listing.lean ====
section
/-! DEFINITION. The stimulus listing (30_encoding.md R106): one operation or pseudo-operation a line, a mnemonic in capitals, operands
separated by spaces, decimal or 0x hexadecimal numbers, a comment after `;`, a repeat count after `*`. Text is a list of
characters, so that every function is structural. The commas the pseudo-operations' rules write between operands (R108,
R109) count as spaces (log 24). -/

namespace Sys2Proof.Machine

/-- Why a line is no line of a listing. -/
inductive ListingError where
  /-- The first word of the line is no mnemonic of R100 or R107 to R114. -/
  | unknownMnemonic (word : List Char)
  /-- Too few, too many, not numbers, or outside the operand's range. -/
  | badOperands (word : List Char)
  /-- A `*` without a count, or with words after it. -/
  | badRepeat
deriving DecidableEq, Repr

/-- Cuts text at every character p names; the pieces between, empty ones too. -/
def splitAtChars (p : Char → Bool) : List Char → List (List Char)
  | [] => [[]]
  | c :: cs =>
    match splitAtChars p cs with
    | [] => [[c]]
    | piece :: pieces => if p c then [] :: piece :: pieces else (c :: piece) :: pieces

/-- The line up to its comment (R106). -/
def dropComment (line : List Char) : List Char := line.takeWhile (fun c => c != ';')

/-- The words of a line; a `*` is a word of its own. -/
def words (line : List Char) : List (List Char) :=
  let spaced := line.flatMap (fun c => if c == '*' then [' ', '*', ' '] else [c])
  (splitAtChars (fun c => c == ' ' || c == ',' || c == '\t' || c == '\r') spaced).filter (fun w => !w.isEmpty)

/-- A digit of the given base. -/
def digitOf (base : Nat) (c : Char) : Option Nat :=
  let n :=
    if '0' ≤ c ∧ c ≤ '9' then c.toNat - '0'.toNat
    else if 'A' ≤ c ∧ c ≤ 'F' then c.toNat - 'A'.toNat + 10
    else if 'a' ≤ c ∧ c ≤ 'f' then c.toNat - 'a'.toNat + 10
    else base
  if n < base then some n else none

/-- Digits of the given base, after a value already read. -/
def digitsFrom (base : Nat) : Nat → List Char → Option Nat
  | acc, [] => some acc
  | acc, c :: cs =>
    match digitOf base c with
    | some d => digitsFrom base (acc * base + d) cs
    | none => none

/-- A number: decimal, or 0x hexadecimal (R106). -/
def numberOf : List Char → Option Nat
  | [] => none
  | '0' :: 'x' :: c :: cs => digitsFrom 16 0 (c :: cs)
  | c :: cs => digitsFrom 10 0 (c :: cs)

/-- Every word a number, or none. -/
def numbersOf : List (List Char) → Option (List Nat)
  | [] => some []
  | w :: ws =>
    match numberOf w, numbersOf ws with
    | some n, some ns => some (n :: ns)
    | _, _ => none

/-- A u8 operand (R100): 0..255. -/
def u8Of (n : Nat) : Option Byte := if n < 256 then some (BitVec.ofNat 8 n) else none

/-- Eight u8 operands. -/
def frameOf : List Nat → Option (Vector Byte Config.frameBytes)
  | [a, b, c, d, e, f, g, h] =>
    match u8Of a, u8Of b, u8Of c, u8Of d, u8Of e, u8Of f, u8Of g, u8Of h with
    | some a, some b, some c, some d, some e, some f, some g, some h => some #v[a, b, c, d, e, f, g, h]
    | _, _, _, _, _, _, _, _ => none
  | _ => none

/-- The mnemonics of the operations (R100) and pseudo-operations (R107 to R114). -/
inductive Mnemonic where
  | idle
  | reset
  | init
  | clk
  | tick
  | edge
  | adcdone
  | lstep
  | edgeAfter
  | sendBit
  | sendByte
  | sendFrame
  | sendFrameNoGap
  | loopIter
  | adcScan
  | pwmCycle
  | boot
deriving DecidableEq, Repr

/-- Their spelling, in capitals (R106). -/
def mnemonicWords : List (List Char × Mnemonic) :=
  [ (['I', 'D', 'L', 'E'], .idle),
    (['R', 'E', 'S', 'E', 'T'], .reset),
    (['I', 'N', 'I', 'T'], .init),
    (['C', 'L', 'K'], .clk),
    (['T', 'I', 'C', 'K'], .tick),
    (['E', 'D', 'G', 'E'], .edge),
    (['A', 'D', 'C', 'D', 'O', 'N', 'E'], .adcdone),
    (['L', 'S', 'T', 'E', 'P'], .lstep),
    (['E', 'D', 'G', 'E', 'A', 'F', 'T', 'E', 'R'], .edgeAfter),
    (['S', 'E', 'N', 'D', 'B', 'I', 'T'], .sendBit),
    (['S', 'E', 'N', 'D', 'B', 'Y', 'T', 'E'], .sendByte),
    (['S', 'E', 'N', 'D', 'F', 'R', 'A', 'M', 'E'], .sendFrame),
    (['S', 'E', 'N', 'D', 'F', 'R', 'A', 'M', 'E', '_', 'N', 'O', 'G', 'A', 'P'], .sendFrameNoGap),
    (['L', 'O', 'O', 'P', 'I', 'T', 'E', 'R'], .loopIter),
    (['A', 'D', 'C', 'S', 'C', 'A', 'N'], .adcScan),
    (['P', 'W', 'M', 'C', 'Y', 'C', 'L', 'E'], .pwmCycle),
    (['B', 'O', 'O', 'T'], .boot) ]

/-- The mnemonic a word spells. -/
def mnemonicOf (word : List Char) : Option Mnemonic :=
  (mnemonicWords.find? (fun m => m.1 == word)).map (fun m => m.2)

/-- SENDBIT's operands (R108): b, and then the gap and the two intervals, by default those of the vectors. -/
def sendBitOf (b g d1 d0 : Nat) : Option (List Instr) :=
  let tm : CellTiming := ⟨g, d1, d0⟩
  if b < 2 ∧ tm.oneShort ∧ tm.zeroLong then some (sendBit (b == 1) tm) else none

/-- The operations of a mnemonic with its operands, before any repetition; none where the operands do not fit it. -/
def expand (m : Mnemonic) (args : List Nat) : Option (List Instr) :=
  match m, args with
  | .idle, [] => some [.idle]
  | .reset, [] => some [.reset]
  | .init, [] => some [.init]
  | .clk, [] => some [.clk]
  | .tick, [] => some [.tick]
  | .edge, [] => some [.edge]
  | .adcdone, [r] => (u8Of r).map (fun r => [.adcdone r])
  | .lstep, [] => some [.lstep]
  | .edgeAfter, [n] => some (edgeAfter n)
  | .sendBit, [b] => sendBitOf b defaultTiming.gap defaultTiming.d1 defaultTiming.d0
  | .sendBit, [b, g, d1, d0] => sendBitOf b g d1 d0
  | .sendByte, [v, g0] => (u8Of v).map (fun v => sendByte defaultTiming v g0)
  | .sendFrame, bytes => (frameOf bytes).map (sendFrame defaultTiming)
  | .sendFrameNoGap, bytes => (frameOf bytes).map (sendFrameNoGap defaultTiming)
  | .loopIter, [] => some loopIter
  | .adcScan, [r0, r1, r2, r3] =>
    match u8Of r0, u8Of r1, u8Of r2, u8Of r3 with
    | some r0, some r1, some r2, some r3 => some (adcScan r0 r1 r2 r3)
    | _, _, _, _ => none
  | .pwmCycle, [] => some pwmCycle
  | .boot, [] => some boot
  | _, _ => none

/-- The repeat count at the end of a line's words (R106): 1 without a `*`. -/
def repeatCount : List (List Char) → Option Nat
  | [] => some 1
  | [['*'], n] => numberOf n
  | _ => none

/-- One line of a listing (R106): its operations, none of them on an empty or comment line. -/
def parseLine (line : List Char) : Except ListingError (List Instr) :=
  match words (dropComment line) with
  | [] => .ok []
  | w :: ws =>
    match mnemonicOf w with
    | none => .error (.unknownMnemonic w)
    | some m =>
      match repeatCount (ws.dropWhile (fun x => x != ['*'])) with
      | none => .error .badRepeat
      | some n =>
        match numbersOf (ws.takeWhile (fun x => x != ['*'])) with
        | none => .error (.badOperands w)
        | some args =>
          match expand m args with
          | none => .error (.badOperands w)
          | some ops => .ok (repeatOps n ops)

/-- A list of lines: their operations one after another, or the number of the first bad line, from 0, and why. -/
def parseLines : Nat → List (List Char) → Except (Nat × ListingError) (List Instr)
  | _, [] => .ok []
  | k, line :: lines =>
    match parseLine line with
    | .error e => .error (k, e)
    | .ok ops =>
      match parseLines (k + 1) lines with
      | .error e => .error e
      | .ok rest => .ok (ops ++ rest)

/-- A whole listing (R106). -/
def parseListing (text : List Char) : Except (Nat × ListingError) (List Instr) :=
  parseLines 0 (splitAtChars (fun c => c == '\n') text)

end Sys2Proof.Machine
end

