-- ==== Sys2Proof/Tests/Slice0.lean ====
section
/-! SUPPORT. Tests: ill-formed terms that each check refuses; words written out from the spec's encodings; one-step tests with the
numbers of 95_test_vectors.md (V<n>) and of the rules; and for each obligation with hypotheses a concrete state that meets
them together (`witness_<Name>`). -/

namespace Sys2Proof.Tests

open Sys2Proof Sys2Proof.Machine

/-! ## WellFormed refuses -/

/-- Op 8 is reserved (R104). -/
theorem test_wf_reserved_op : (EventFields.wf ⟨8, 0, 0⟩) = false := by decide
/-- z must be 0000 (R101). -/
theorem test_wf_nonzero_z : (EventFields.wf ⟨6, 1, 55⟩) = false := by decide
/-- An N word has no operand (R104). -/
theorem test_wf_operand_on_n_format : (EventFields.wf ⟨5, 0, 1⟩) = false := by decide
/-- An I word may hold any operand (R102). -/
theorem test_wf_operand_of_adcdone : (EventFields.wf ⟨6, 0, 255⟩) = true := by decide
/-- A gap of 255 ticks resynchronises: no cell of a live frame (R108). -/
theorem test_wf_gap_saturates : (CellTiming.wf ⟨255, 2, 8⟩) = false := by decide
/-- 5 ticks are not a 1 (R93, R108). -/
theorem test_wf_one_too_long : (CellTiming.wf ⟨2, 5, 8⟩) = false := by decide
/-- 4 ticks are not a 0 (R93, R108). -/
theorem test_wf_zero_too_short : (CellTiming.wf ⟨2, 2, 4⟩) = false := by decide
/-- 255 ticks saturate (R108). -/
theorem test_wf_zero_saturates : (CellTiming.wf ⟨2, 2, 255⟩) = false := by decide

/-! ## Words from R103's table, bit by bit -/

theorem test_decode_idle : decodeWord 0b0000000000000000 = .ok .idle := by decide
theorem test_decode_reset : decodeWord 0b0001000000000000 = .ok .reset := by decide
theorem test_decode_init : decodeWord 0b0010000000000000 = .ok .init := by decide
theorem test_decode_clk : decodeWord 0b0011000000000000 = .ok .clk := by decide
theorem test_decode_tick : decodeWord 0b0100000000000000 = .ok .tick := by decide
theorem test_decode_edge : decodeWord 0b0101000000000000 = .ok .edge := by decide
/-- V14: ADCDONE 55 is 0x6037. -/
theorem test_decode_adcdone : decodeWord 0b0110000000110111 = .ok (.adcdone 55) := by decide
theorem test_decode_lstep : decodeWord 0b0111000000000000 = .ok .lstep := by decide
/-- V14: 0xF000, 0x0100 and 0x00FF are reserved; none is read as its neighbour. -/
theorem test_decode_reserved :
    decodeWord 0xF000 = .error (.reservedOp 0xF000) ∧ decodeWord 0x0100 = .error (.nonzeroZ 0x0100) ∧
    decodeWord 0x00FF = .error (.operandOnNFormat 0x00FF) := by decide
/-- V14: RESET; INIT; ADCDONE 55 is 10 00 20 00 60 37. -/
theorem test_encode_stream :
    encodeStream [.reset, .init, .adcdone 55] = [0x10, 0x00, 0x20, 0x00, 0x60, 0x37] := by decide
/-- Bytes go high byte first (R101): 37 60 is not ADCDONE 55. -/
theorem test_decode_byte_order :
    decode [0x60, 0x37, 0x70] = .ok (.adcdone 55, [0x70]) ∧
    decode [0x37, 0x60] = .error (.nonzeroZ 0x3760) := by decide
theorem test_decode_end : decode [0x70] = .error (.truncated 0x70) ∧ decode [] = .error .endOfStream := by decide
theorem test_decodeTableWord :
    decodeTableWord 16 0x60FF = some (.adcdone 255) ∧ decodeTableWord 16 0x8000 = none := by decide

/-! ## One step -/

/-- The operation code's word, placed where step takes it, runs as the first operation after reset; RESET and IDLE complete. -/
theorem test_first_step_idle :
    step (State.reset.withFetchWord 16 0x0000) = .next { State.reset with pos := 1 } := rfl
theorem test_first_step_reserved :
    step (State.reset.withFetchWord 16 0x6137) = .refused (.reservedWord 0 0x6137) := rfl
theorem test_step_of_empty_stream : step State.reset = .refused (.endOfStimulus 0) := rfl

/-- A running block as BOOT leaves it but for PERIOD, whose value nothing knows: here both periods are 8 (V15, V17). -/
def running : State := { State.reset with run := true, conv := true, per1 := 8, per2 := 8 }

/-- BOOT's end state, PERIOD as it is. -/
def booted : State := configure State.reset

/-- A component of the next state, none where there is no next state. -/
def after {α : Type} (i : Instr) (s : State) (f : State → α) : Option α :=
  match exec i s with
  | .next t => some (f t)
  | .fault _ => none
  | .refused _ => none

/-- The same after a run of operations. -/
def afterRun {α : Type} (ops : List Instr) (s : State) (f : State → α) : Option α :=
  match runOps ops s with
  | .next t => some (f t)
  | .fault _ => none
  | .refused _ => none

/-- V10: from a state far from reset. -/
theorem test_reset_clears :
    exec .reset { running with pulse := 3, ecnt := 77, ch := 2, duty1 := 5, lph := .adj2 } = .next State.reset := rfl
/-- V11: SCTL reads 0x80 and CTRL 0x01 after INIT, and PULSE is still 255. -/
theorem test_init_bytes :
    after .init State.reset (fun t => (byteAt t 0x00, byteAt t 0x12, byteAt t 0x0E)) = some (0x01, 0x80, 0xFF) := by decide
/-- V13: the second INIT is refused. -/
theorem test_init_twice : exec .init running = .refused .initWhileRunning := rfl
/-- R132: IDLE changes nothing, in a state where every component is off its reset value. -/
theorem test_idle : exec .idle { running with pulse := 3 } = .next { running with pulse := 3 } := rfl
/-- V17: at CNT = 7 of PERIOD = 8 the clock returns the counters to 0 and ticks. -/
theorem test_clk_wraps :
    after .clk { running with cnt1 := 7, cnt2 := 7, pulse := 0 } (fun t => (t.cnt1, t.cnt2, t.pulse)) = some (0, 0, 1) := by
  decide
/-- R154: the tick is timer 1's; timer 2 alone wrapping does not tick. -/
theorem test_clk_tick_is_timer_1 :
    after .clk { running with cnt1 := 2, cnt2 := 7, pulse := 0 } (fun t => (t.cnt1, t.cnt2, t.pulse)) = some (3, 0, 0) := by
  decide
/-- V15: with DUTY1 = 3, DUTY2 = 8, at counter 2 both outputs are active and at counter 3 only the second is. -/
theorem test_outputs :
    out1 { running with duty1 := 3, cnt1 := 2 } = true ∧ out1 { running with duty1 := 3, cnt1 := 3 } = false ∧
    out2 { running with duty2 := 8, cnt2 := 7 } = true := by decide
/-- R41, R172: the multiplexer follows CH, before INIT (CH = 0) and after. -/
theorem test_adc_sel :
    adcSel State.reset = Config.chanList 0 ∧ adcSel { running with ch := 3 } = Config.chanList 3 := ⟨rfl, rfl⟩
/-- V36: 254 goes to 255 and stays. -/
theorem test_tick_saturates :
    afterRun [.tick, .tick] { running with pulse := 254 } (fun t => t.pulse) = some 255 := by decide
/-- V38: on PULSE = 4, ECNT = 1 the two orders of a coinciding tick and edge differ. -/
theorem test_tick_edge_order :
    afterRun [.tick, .edge] { running with pulse := 4, ecnt := 1 } (fun t => (t.byte, t.pulse, t.ecnt)) = some (0, 0, 2) ∧
    afterRun [.edge, .tick] { running with pulse := 4, ecnt := 1 } (fun t => (t.byte, t.pulse, t.ecnt)) = some (1, 1, 2) := by
  decide
/-- V7: a resync in mid-frame, from ECNT = 49, BYTE = 3: ECNT ends at 1, CRC at 0, BYTE and CMD[0] as they were. -/
theorem test_edge_resync :
    after .edge { running with ecnt := 49, byte := 3, crc := 0xC8, cmd := #v[1, 2, 3, 0, 0, 0, 0, 0] }
      (fun t => (t.ecnt, t.crc, t.pulse, t.byte, t.cmd[0])) = some (1, 0, 0, 3, 1) := by decide
/-- V20, edge 15: ECNT 15 to 16, bit 0, CMD[0] and CRC take 0xDC. -/
theorem test_edge_completes_byte :
    after .edge { running with pulse := 8, ecnt := 15, byte := 0x6E }
      (fun t => (t.ecnt, t.byte, t.crc, t.cmd[0], t.cmd[1])) = some (16, 0xDC, 0xDC, 0xDC, 0) := by decide
/-- V25: 4 ticks are a 1, 5 ticks a 0, on the edge that finds ECNT = 1. -/
theorem test_edge_threshold :
    after .edge { running with pulse := 4, ecnt := 1 } (fun t => t.byte) = some 1 ∧
    after .edge { running with pulse := 5, ecnt := 1 } (fun t => t.byte) = some 0 := by decide
/-- V27: the edge that completes {100, 90, 50, 40, 1, 2, 3, 36} publishes it (running CRC before byte 7 is 0x24). -/
theorem test_edge_publishes :
    after .edge { running with pulse := 8, ecnt := 127, byte := 0x12, crc := 0x24, cmd := #v[100, 90, 50, 40, 1, 2, 3, 0] }
      (fun t => (t.sp, t.crc, t.ecnt)) = some (#v[100, 90, 50, 40, 1, 2, 3, 36], 0, 0) := by decide
/-- V22: the same frame with 5 in place of 36 is dropped, CMD keeps it, CRC is cleared. -/
theorem test_edge_drops :
    after .edge { running with pulse := 2, ecnt := 127, byte := 0x02, crc := 0x24, cmd := #v[100, 90, 50, 40, 1, 2, 3, 0] }
      (fun t => (t.sp, t.cmd[7], t.crc)) = some (#v[220, 220, 72, 72, 0, 0, 0, 0], 5, 0) := by decide
/-- V29, for contrast: under DATA_PARITY = 0 the resync interval itself is classified, as a 0 (edge e0 is a data edge). -/
theorem test_edge_rejected_parity :
    (edgeActionWith false true { running with byte := 1 }).byte = 2 ∧
    (edgeActionWith true true { running with byte := 1 }).byte = 1 := by decide
/-- V31 to V32: the third result goes to slot 2; the index wraps from 3 to 0. -/
theorem test_adcdone_slot :
    after (.adcdone 55) { running with smp := #v[100, 90, 0, 0], ch := 2 } (fun t => (t.smp, t.ch)) =
      some (#v[100, 90, 55, 0], 3) := by decide
theorem test_adcdone_wraps :
    after (.adcdone 44) { running with ch := 3 } (fun t => (t.smp[3], t.ch, t.conv)) = some (44, 0, true) := by decide
/-- V34: with RUN = 0 nothing happens. -/
theorem test_adcdone_before_init : exec (.adcdone 9) State.reset = .next State.reset := rfl
/-- V55: phase 1 reads SP[2] = 72 into A_IL and goes to phase 2. -/
theorem test_lstep_load :
    after .lstep { running with lph := .ldIl1 } (fun t => (t.aIl, t.lph)) = some (72, .ldVm1) := by decide
/-- V41: a running phase 4 with the current over its limit takes DUTY1 from 40 to 39. -/
theorem test_lstep_adjusts :
    after .lstep { running with lph := .adj1, duty1 := 40, aIm := 73, aIl := 72, aVm := 100, aVl := 220 }
      (fun t => (t.duty1, t.duty2, t.lph)) = some (39, 0, .ldIm2) := by decide

/-! ## The control law at its edges, PERIOD = 800 (V40 to V53) -/

theorem test_adjust_over :
    adjust 800 40 73 72 100 220 = 39 ∧ adjust 800 40 55 72 221 220 = 39 ∧ adjust 800 0 73 72 0 220 = 0 ∧
    adjust 800 40 1 0 0 0 = 39 ∧ adjust 800 40 73 72 221 220 = 39 := by decide
theorem test_adjust_under :
    adjust 800 40 55 72 100 220 = 41 ∧ adjust 800 40 61 72 199 220 = 41 ∧ adjust 800 800 0 72 0 220 = 800 ∧
    adjust 800 40 244 255 0 255 = 41 := by decide
theorem test_adjust_holds :
    adjust 800 40 72 72 220 220 = 40 ∧ adjust 800 40 62 72 100 220 = 40 ∧ adjust 800 40 61 72 200 220 = 40 ∧
    adjust 800 40 250 255 0 255 = 40 ∧ adjust 800 40 245 255 0 255 = 40 ∧ adjust 800 40 0 10 0 255 = 40 := by decide

/-! ## Wire, memory, listing -/

/-- 220 = 0xDC is sent 1 1 0 1 1 1 0 0 (V20); the byte that completes V27's frame is 36. -/
theorem test_wire_bits : bitsOfByte 220 = [true, true, false, true, true, true, false, false] := by decide
theorem test_checksum_byte : checksumByte [100, 90, 50, 40, 1, 2, 3] = 36 := by decide
/-- V11: 800 is 0x03, 0x20 from the even address up (R62). -/
theorem test_pair_big_endian :
    byteAt { running with per1 := 800 } 0x02 = 0x03 ∧ byteAt { running with per1 := 800 } 0x03 = 0x20 ∧
    memRead2 { running with per1 := 800 } 0x02 = .ok 800 := by decide
theorem test_memory_refusals :
    memRead2 running 0x03 = .error (.misalignedPair 3) ∧ memRead1 running 0x30 = .error (.outsideDataSpace 48) ∧
    memWrite1 running 0x01 11 = .error (.phaseNotRepresentable 11) ∧
    observationWrite running 0x0E 0 = .error (.observationPortReadOnly 14) := by decide
/-- R66: RESET stores to every implemented location, 43 in all, and to none of the reserved ones. -/
theorem test_reset_spares_reserved :
    (storeAddrs .reset running).length = 43 ∧ 0x13 ∉ storeAddrs .reset running ∧ 0x2C ∉ storeAddrs .reset running ∧
    0x12 ∈ storeAddrs .reset running ∧ 0x2B ∈ storeAddrs .reset running := by decide
/-- R106: capitals, decimal and 0x numbers, a comment, a repetition. -/
theorem test_listing :
    parseListing ("BOOT ; power on\nADCDONE 0x37\nTICK *3".toList) =
      .ok [.reset, .init, .adcdone 55, .tick, .tick, .tick] := by decide
theorem test_listing_refuses :
    parseListing ("IDLE\nADCDONE 256".toList) = .error (1, .badOperands ("ADCDONE".toList)) ∧
    parseListing ("tick".toList) = .error (0, .unknownMnemonic ("tick".toList)) := by decide

/-! ## Witnesses: a concrete state and operands that meet all hypotheses of an obligation together -/

theorem witness_OpcodeRowsAreDisjoint :
    (⟨.i, 0x6000, 0x6⟩ : OpcodeRow) ∈ opcodeRows ∧ (⟨.i, 0x6000, 0x6⟩ : OpcodeRow).selects 0x6037 = true := by decide
theorem witness_BytesAreSentMostSignificantBitFirst : (0 < 8 ∧ 7 < 8) := by decide
theorem witness_StepRunsTheDecodedOperation :
    decode ({ running with stim := [0x60, 0x09, 0x30] } : State).stim = .ok (.adcdone 9, [0x30]) := by decide
theorem witness_ReservedWordsAreRefused :
    (fieldsOf ((0x61 : Byte) ++ (0x37 : Byte))).wf = false ∧ (fieldsOf ((0x80 : Byte) ++ (0x00 : Byte))).wf = false := by
  decide
theorem witness_StreamRunsItsOperations :
    runOps [.reset, .edge, .tick] running = .next State.reset := rfl
theorem witness_EveryOperationIsTotal :
    ¬ ((Instr.init = .init) ∧ State.reset.run = true) ∧ ¬ ((Instr.edge = .init) ∧ running.run = true) := by decide
theorem witness_AdmittedExecutionsRunToTheirEnd :
    admitted State.reset.run [.tick, .init, .lstep, .reset, .init] = true ∧
    admitted running.run [.edge, .reset, .init] = true := by decide
/-- An endless sequence, R280's: INIT, and then loop steps for ever. -/
theorem witness_AdmittedForever : AdmittedForever State.reset.run (fun n => if n = 0 then .init else .lstep) := by
  have run_true : ∀ ops : List Instr, (∀ i ∈ ops, i = .lstep) → admitted true ops = true := by
    intro ops h
    induction ops with
    | nil => rfl
    | cons i ops ih =>
      have hi := h i (by simp)
      subst hi
      exact ih (fun j hj => h j (by simp [hj]))
  intro n
  cases n with
  | zero => rfl
  | succ n =>
    simp only [firstOps, List.range_succ_eq_map, List.map_cons, List.map_map]
    exact run_true _ (by simp)
theorem witness_InitConfiguresTheBlock : State.reset.run = false := by decide
theorem witness_SecondInitIsRefused : running.run = true := by decide
theorem witness_NothingActsBeforeInit : State.reset.run = false := by decide
theorem witness_RunIsWrittenOnlyByInitAndReset :
    (∃ t, exec .init State.reset = .next t ∧ t.run ≠ State.reset.run) ∧
    (∃ t, exec .reset running = .next t ∧ t.run ≠ running.run) :=
  ⟨⟨booted, rfl, by decide⟩, ⟨State.reset, rfl, by decide⟩⟩
theorem witness_ReachableUnconfiguredStateIsReset :
    Reachable State.reset ∧ State.reset.run = false := ⟨Reachable.reset [] 0, rfl⟩
theorem witness_ClkCountsBothTimers : running.run = true := by decide

theorem booted_inv : Inv booted := by
  have hp := period_bounds
  have hc : State.reset.crc = xorBytes (State.reset.cmd.toList.take (State.reset.ecnt.toNat / 16)) := by decide
  have hs : xorBytes State.reset.sp.toList = 0 := by decide
  exact ⟨rfl, rfl, Nat.zero_le _, Nat.zero_le _, fun _ => hp.1, rfl, Nat.zero_le _, hs, rfl, hc⟩

theorem witness_PwmCycleReturnsAndTicksOnce : Inv booted ∧ booted.run = true := ⟨booted_inv, rfl⟩
theorem witness_ActiveClocksPerCycleEqualDuty :
    booted.run = true ∧ booted.per1 = Config.period ∧ booted.per2 = Config.period ∧
    booted.cnt1.toNat < Config.period.toNat ∧ booted.cnt2.toNat < Config.period.toNat :=
  ⟨rfl, rfl, rfl, period_bounds.1, period_bounds.1⟩
/-- One state for each clause: not running; running; running at the wrap of timer 1. -/
theorem witness_TickSaturatesThePulseCounter :
    State.reset.run = false ∧ running.run = true ∧
    ({ running with cnt1 := 7 } : State).cnt1.toNat + 1 ≥ ({ running with cnt1 := 7 } : State).per1.toNat := by decide
theorem witness_PulseCountsTickActionsSinceTheEdge :
    running.run = true ∧ ∀ i ∈ [Instr.tick, .clk, .lstep, .adcdone 3], isRunOp i = true ∧ i ≠ .edge := by decide
theorem witness_EveryEdgeRestartsTheInterval : running.run = true := by decide
theorem witness_ResyncEdgeStartsAFrame : running.run = true ∧ running.pulse = 255 := by decide
/-- Both clauses at the threshold's two sides and at the ends of the count: ECNT = 127 with 4 and with 5, ECNT = 0 and 126. -/
theorem witness_DataEdgeShiftsTheClassifiedBit :
    running.run = true ∧ (4 : Byte) ≠ 255 ∧ (127 : Byte).toNat % 2 = 1 ∧ (126 : Byte).toNat % 2 = 0 ∧
    (0 : Byte).toNat % 2 = 0 := by decide
/-- The three branches: PULSE = 255; ECNT = 127 without it; ECNT = 126 and 0. -/
theorem witness_EdgeCountReturnsToZeroAfter128 :
    running.run = true ∧ running.pulse = 255 ∧ (127 : Byte).toNat ≤ 127 ∧ (127 : Byte).toNat + 1 = 128 ∧
    (126 : Byte).toNat + 1 ≠ 128 ∧
    after .edge { running with ecnt := 127 } (fun t => t.ecnt) = some 1 ∧
    after .edge { running with ecnt := 127, pulse := 254 } (fun t => t.ecnt) = some 0 ∧
    after .edge { running with ecnt := 126, pulse := 254 } (fun t => t.ecnt) = some 127 := by decide
/-- The first and the last byte end; an edge that is none; a resync edge at a byte end. -/
theorem witness_CompletedByteIsStaged :
    running.run = true ∧ (15 : Byte).toNat ≤ 127 ∧ ((15 : Byte).toNat + 1) % 16 = 0 ∧
    ((127 : Byte).toNat + 1) % 16 = 0 ∧ ((126 : Byte).toNat + 1) % 16 ≠ 0 ∧
    after .edge { running with ecnt := 15, pulse := 2 } (fun t => t.cmd) = some #v[1, 0, 0, 0, 0, 0, 0, 0] ∧
    after .edge { running with ecnt := 127, pulse := 2 } (fun t => t.cmd) = some #v[0, 0, 0, 0, 0, 0, 0, 1] ∧
    after .edge { running with ecnt := 15, pulse := 255 } (fun t => t.cmd) = some running.cmd := by decide
/-- Its clauses: a byte end before the frame's; the frame's with checksum 0 and not 0; no byte end. -/
theorem witness_CompletedByteIsFoldedIntoTheChecksum :
    running.run = true ∧ (2 : Byte) ≠ 255 ∧
    after .edge { running with ecnt := 111, pulse := 2, crc := 6 } (fun t => (t.crc, t.byte)) = some (7, 1) ∧
    after .edge { running with ecnt := 127, pulse := 2, crc := 1 } (fun t => t.sp) = some #v[0, 0, 0, 0, 0, 0, 0, 1] ∧
    after .edge { running with ecnt := 127, pulse := 2, crc := 2 } (fun t => t.sp) = some running.sp ∧
    after .edge { running with ecnt := 126, pulse := 2, crc := 2 } (fun t => t.crc) = some 2 := by decide
theorem witness_ValidFrameIsPublishedWhole :
    running.run = true ∧ ({ running with pulse := 2, ecnt := 127 } : State).pulse ≠ 255 ∧
    ({ running with pulse := 2, ecnt := 127 } : State).ecnt = 127 ∧
    after .edge { running with pulse := 2, ecnt := 127, crc := 1 } (fun t => (1 : Byte) ^^^ t.byte) = some 0 ∧
    after .edge { running with pulse := 2, ecnt := 127, crc := 2 } (fun t => (2 : Byte) ^^^ t.byte) = some 3 := by decide
theorem witness_InvalidFrameIsDropped :
    running.run = true ∧ running.pulse = 255 ∧ ({ running with pulse := 2, ecnt := 127 } : State).pulse ≠ 255 ∧
    after .edge { running with pulse := 2, ecnt := 127, crc := 2 } (fun t => (2 : Byte) ^^^ t.byte) = some 3 := by decide
theorem witness_ChecksumIsClearedAtFrameEnd :
    ({ running with ecnt := 127 } : State).run = true ∧ ({ running with ecnt := 127 } : State).ecnt = 127 := by decide

/-- 63 live cells at the limits of both intervals. -/
def restOfFrame : List WireCell := List.replicate 63 ⟨254, 254⟩

/-- Both ways a frame can start: an idle gap, and a clean decoder with no gap. -/
theorem witness_ReceivedCellsAreStagedAndPublishedIfValid :
    running.run = true ∧ restOfFrame.length = 63 ∧ (⟨0, 254⟩ : WireCell).data < 255 ∧
    (∀ c ∈ restOfFrame, cellLive c = true) ∧ running.pulse.toNat + 0 ≥ 255 ∧
    (running.ecnt = 0 ∧ running.crc = 0) := by decide
theorem witness_SentFrameBecomesTheSetpointFrame :
    running.run = true ∧ CellTiming.wf ⟨254, 4, 5⟩ = true ∧ CellTiming.wf ⟨0, 0, 254⟩ = true ∧
    xorBytes [100, 90, 50, 40, 1, 2, 3, 36] = 0 ∧ xorBytes [100, 90, 50, 40, 1, 2, 3, 5] = 0x21 := by decide
/-- Both clauses: gaps of 4 and of 5 ticks. -/
theorem witness_SlippedFrameIsPublishedAsEqualBytes :
    ({ running with ecnt := 1, pulse := 0 } : State).run = true ∧ ({ running with ecnt := 1, pulse := 0 } : State).ecnt = 1 ∧
    ({ running with ecnt := 1, pulse := 0 } : State).crc = 0 ∧ ({ running with ecnt := 1, pulse := 0 } : State).pulse = 0 ∧
    CellTiming.wf ⟨4, 2, 8⟩ = true ∧ CellTiming.wf ⟨5, 2, 8⟩ = true := by decide

/-- A booted block whose next edge completes the valid frame {1, 0, 0, 0, 0, 0, 0, 1}. -/
def aboutToPublish : State :=
  { booted with pulse := 2, ecnt := 127, crc := 1, cmd := #v[1, 0, 0, 0, 0, 0, 0, 0] }

theorem witness_SetpointsChangeOnlyByPublish :
    Inv aboutToPublish ∧ Instr.edge ≠ .reset ∧
    ∃ t, exec .edge aboutToPublish = .next t ∧ t.sp ≠ aboutToPublish.sp := by
  have hp := period_bounds
  have hc : aboutToPublish.crc = xorBytes (aboutToPublish.cmd.toList.take (aboutToPublish.ecnt.toNat / 16)) := by decide
  have hs : xorBytes State.reset.sp.toList = 0 := by decide
  refine ⟨⟨rfl, rfl, Nat.zero_le _, Nat.zero_le _, fun _ => hp.1, rfl, Nat.le_refl 127, hs, rfl, hc⟩, by decide, ?_⟩
  refine ⟨edgeAction aboutToPublish, rfl, ?_⟩
  have h : (edgeAction aboutToPublish).sp = #v[1, 0, 0, 0, 0, 0, 0, 1] := by decide
  rw [h]
  decide

/-- All three cases: running with a conversion, not running, running without. -/
theorem witness_AdcdoneStoresAndAdvances :
    running.run = true ∧ running.conv = true ∧ State.reset.run = false ∧
    ({ running with conv := false } : State).conv = false := by decide
theorem witness_FourCompletionsRefreshEverySlot :
    running.run = true ∧ running.conv = true := by decide
theorem witness_MissedCompletionFreezesTheSampler : noCompletion [.idle, .clk, .tick, .edge, .lstep] = true := by decide
theorem witness_SampleIsTheTopEightBits : (0 < 8 ∧ 7 < 8) := by decide
/-- Each of the eight loading phases, in a running state. -/
theorem witness_LoadPhasesReadOneByteEach :
    ∀ p ∈ [Phase.ldIm1, .ldIl1, .ldVm1, .ldVl1, .ldIm2, .ldIl2, .ldVm2, .ldVl2],
      ({ running with lph := p } : State).run = true ∧ ({ running with lph := p } : State).lph = p := by decide
theorem witness_AdjustPhasesWriteTheirOwnDuty :
    ∀ p ∈ [Phase.adj1, .adj2], ({ running with lph := p } : State).run = true ∧ ({ running with lph := p } : State).lph = p := by
  decide
theorem witness_PhaseAdvancesModuloEleven :
    ({ running with lph := .wait } : State).run = true ∧ phaseNumber ({ running with lph := .wait } : State).lph = 10 := by decide
theorem witness_OneIterationAdjustsBothChannels : running.run = true ∧ running.lph = .ldIm1 := by decide
/-- The start, and a scan for each clause against SP_RESET's limits (V 220, I 72): over; on the four corners of the band; under by
one count more than the bands. -/
theorem witness_HysteresisLawsOverIterations :
    booted.run = true ∧ booted.conv = true ∧ booted.ch = 0 ∧ booted.lph = .ldIm1 ∧
    (∀ c : Fin 2, (readSetpoint booted (currentIndex c)).toNat = 72 ∧ (readSetpoint booted (voltageIndex c)).toNat = 220) ∧
    (∀ c : Fin 2, (#v[0, 0, 73, 73] : Vector Byte 4)[currentIndex c].toNat > 72) ∧
    (∀ c : Fin 2, (#v[200, 220, 62, 72] : Vector Byte 4)[currentIndex c].toNat ≤ 72 ∧
      72 ≤ (#v[200, 220, 62, 72] : Vector Byte 4)[currentIndex c].toNat + 10 ∧
      (#v[200, 220, 62, 72] : Vector Byte 4)[voltageIndex c].toNat ≤ 220 ∧
      220 ≤ (#v[200, 220, 62, 72] : Vector Byte 4)[voltageIndex c].toNat + 20) ∧
    (∀ c : Fin 2, (#v[199, 199, 61, 61] : Vector Byte 4)[currentIndex c].toNat + 10 < 72 ∧
      (#v[199, 199, 61, 61] : Vector Byte 4)[voltageIndex c].toNat + 20 < 220) ∧
    (∀ c : Fin 2, (dutyOf booted c).toNat = 0) := by decide
theorem witness_DutyMovesAtMostOneCount :
    isRunOp .lstep = true ∧ (∃ t, exec .lstep booted = .next t) ∧
    ∀ c : Fin 2, (dutyOf booted c).toNat ≤ Config.period.toNat := by
  refine ⟨rfl, ⟨_, rfl⟩, fun c => ?_⟩
  have h : ∀ c : Fin 2, (dutyOf booted c).toNat = 0 := by decide
  rw [h c]
  exact Nat.zero_le _
/-- Every position of the edge, its ends 0 and 11 with the rest. -/
theorem witness_EdgeInAnIterationTearsTheSetpoints :
    running.run = true ∧ running.lph = .ldIm1 ∧ 11 ≤ 11 ∧ ∃ u, exec .edge running = .next u :=
  ⟨rfl, rfl, Nat.le_refl 11, _, rfl⟩
theorem witness_HandlersLeaveTheMainLoopAlone :
    contextOf .tick = some .interrupt ∧ contextOf .edge = some .interrupt ∧ contextOf (.adcdone 0) = some .interrupt := by
  decide
theorem witness_TickAndEdgeRunInEitherOrder :
    ({ running with pulse := 4, ecnt := 1 } : State).run = true ∧ ({ running with pulse := 4, ecnt := 1 } : State).pulse = 4 ∧
    ({ running with pulse := 4, ecnt := 1 } : State).ecnt.toNat % 2 = 1 := by decide
/-- An LSTEP that reads SMP[2] beside a completion of slot 0, and a publishing edge beside the same LSTEP. -/
theorem witness_IndependentAgentsCommute :
    isRunOp .lstep = true ∧ isRunOp (.adcdone 7) = true ∧ agentOf .lstep ≠ agentOf (.adcdone 7) ∧
    conflicts running .lstep (.adcdone 7) = false ∧ conflicts running (.adcdone 7) .lstep = false ∧
    publishes aboutToPublish = true ∧ conflicts aboutToPublish .edge .lstep = false ∧
    conflicts aboutToPublish .lstep .edge = false := by decide
theorem witness_EveryStepKeepsTheInvariants :
    Inv { booted with stim := [0x50, 0x00] } ∧ ∃ t, step { booted with stim := [0x50, 0x00] } = .next t := by
  have h := booted_inv
  exact ⟨⟨h.per1_eq, h.per2_eq, h.duty1_le, h.duty2_le, h.cnt1_lt, h.cnt2_eq, h.ecnt_le, h.sp_xor, h.conv_eq, h.crc_eq⟩, _, rfl⟩
theorem witness_OperationsStoreOnlyWhereListed :
    (∃ t, exec .tick running = .next t) ∧ 0x0F ∉ storeAddrs .tick running := ⟨⟨_, rfl⟩, by decide⟩
theorem witness_EffectsDependOnlyOnListedReads :
    (∃ t₁, exec .tick running = .next t₁) ∧ (∃ t₂, exec .tick { running with crc := 9 } = .next t₂) ∧
    ∀ a ∈ readAddrs .tick running, byteAt running a = byteAt { running with crc := 9 } a :=
  ⟨⟨_, rfl⟩, ⟨_, rfl⟩, by decide⟩
/-- The ends of the space, and the largest value LPH takes. -/
theorem witness_ByteWriteReadsBack :
    (0x00 < 48 ∧ 0x2F < 48) ∧ (0x01 < 48 ∧ (10 : Byte).toNat % 16 ≤ 10) := by decide
/-- An address just outside the space; odd addresses at its two ends. -/
theorem witness_MemoryPrimitiveRefusals : 48 ≤ 48 ∧ (0x01 < 48 ∧ 0x01 % 2 = 1) ∧ (0x2F < 48 ∧ 0x2F % 2 = 1) := by decide
theorem witness_CellListIsCanonical :
    cells { State.reset with crc := 5 } =
      [(0x0E, 255), (0x11, 5), (0x18, 220), (0x19, 220), (0x1A, 72), (0x1B, 72)] := by decide

end Sys2Proof.Tests
end

section
/-! LAWS. The wire encoding of a byte and of a frame (30_encoding.md R94, R95): the place of each bit, the number eight bits stand
for, and that bytes come back from the bits they are sent as. -/

namespace Sys2Proof.Machine

theorem bitsOfByte_length (v : Byte) : (bitsOfByte v).length = 8 := rfl

theorem bitsOfByte_getElem? (v : Byte) (i : Nat) (hi : i < 8) :
    (bitsOfByte v)[i]? = some (v.getLsbD (7 - i)) := by
  interval_cases i <;> rfl

/-- The sum stays below 2^8, so the byte loses nothing of it. -/
theorem byteOfBits_toNat (b0 b1 b2 b3 b4 b5 b6 b7 : Bool) :
    (byteOfBits [b0, b1, b2, b3, b4, b5, b6, b7]).toNat =
      b0.toNat * 2 ^ 7 + b1.toNat * 2 ^ 6 + b2.toNat * 2 ^ 5 + b3.toNat * 2 ^ 4 +
      b4.toNat * 2 ^ 3 + b5.toNat * 2 ^ 2 + b6.toNat * 2 ^ 1 + b7.toNat * 2 ^ 0 := by
  have := b0.toNat_le; have := b1.toNat_le; have := b2.toNat_le; have := b3.toNat_le
  have := b4.toNat_le; have := b5.toNat_le; have := b6.toNat_le; have := b7.toNat_le
  simp only [byteOfBits, List.foldl, BitVec.toNat_ofNat]
  omega

/-- A byte is the sum of its binary digits. -/
theorem byteOfBits_bitsOfByte (v : Byte) : byteOfBits (bitsOfByte v) = v := by
  apply BitVec.eq_of_toNat_eq
  have hv := v.isLt
  rw [bitsOfByte, byteOfBits_toNat]
  simp only [BitVec.getLsbD, Nat.toNat_testBit]
  omega

theorem bitsOfFrame_cons (v : Byte) (bytes : List Byte) :
    bitsOfFrame (v :: bytes) = bitsOfByte v ++ bitsOfFrame bytes :=
  List.flatMap_cons

/-- Frames of every length: the first eight bits are the first byte's, the rest the other bytes'. -/
theorem bytesOfBits_bitsOfFrame (bytes : List Byte) :
    bytesOfBits bytes.length (bitsOfFrame bytes) = bytes := by
  induction bytes with
  | nil => rfl
  | cons v bytes ih =>
    rw [bitsOfFrame_cons, List.length_cons, bytesOfBits, List.take_left' (bitsOfByte_length v),
      List.drop_left' (bitsOfByte_length v), byteOfBits_bitsOfByte, ih]

/-- Settles O5: the sum of eight bits does not overflow a byte, the bits are listed from bit 7 down, and a frame's bytes come back
by induction on the frame. -/
theorem bytesAreSentMostSignificantBitFirst : Obligations.BytesAreSentMostSignificantBitFirst := by
  refine ⟨byteOfBits_toNat, bitsOfByte_getElem?, fun frame => ?_⟩
  have h := bytesOfBits_bitsOfFrame frame.toList
  rwa [Vector.length_toList] at h

end Sys2Proof.Machine
end

section
/-! LAWS. The whole EDGE action (44_frame_decoder.md R197), in closed form where the statements speak of it: a resync edge, and the edge
that completes a frame. -/

namespace Sys2Proof.Machine

/-- A running EDGE is the edge action (R197, R213). -/
theorem exec_edge_of_run {s : State} (h : s.run = true) : exec .edge s = .next (edgeAction s) :=
  (takeInterrupt_next s edgeAction).trans (by rw [if_pos h])

/-- Nothing outside the decoder moves on an edge (R38's EDGE column). -/
theorem edgeAction_only (s : State) : OnlyDecoder s (edgeAction s) := edgeActionWith_only _ _ s

/-! ## The interval -/

theorem edgeByte_pulse (s : State) : (edgeByte s).pulse = s.pulse := by unfold edgeByte; split <;> rfl

theorem edgeFrame_pulse (c : Bool) (s : State) : (edgeFrame c s).pulse = s.pulse := by
  unfold edgeFrame; split <;> rfl

/-- The steps after the restart leave the interval at 0 (R201). -/
theorem edgeAction_pulse (s : State) : (edgeAction s).pulse = 0 := by
  rw [edgeAction, edgeActionWith, edgeFrame_pulse, edgeByte_pulse, edgeRestart_pulse]

/-- Settles O25: step 3 clears the interval on every path, the later steps do not touch it, and no step leaves the decoder. -/
theorem everyEdgeRestartsTheInterval : Obligations.EveryEdgeRestartsTheInterval := fun s hrun =>
  ⟨edgeAction s, exec_edge_of_run hrun, edgeAction_pulse s, edgeAction_only s⟩

/-! ## The resync edge -/

theorem edgeResync_of_sat (s : State) : edgeResync Config.sat s = { s with ecnt := 0, crc := 0 } := if_pos rfl

/-- A resync edge is edge 0 of a frame (R198): not a data edge, and neither a byte end nor a frame end. -/
theorem edgeAction_of_resync {s : State} (h : s.pulse = 255) :
    edgeAction s = { s with ecnt := 1, crc := 0, pulse := 0 } := by
  have hsat : s.pulse = Config.sat := h
  have hclock : ¬ dataEdge Config.dataParity 0 := by decide
  have hbyte : ¬ byteDone 0 := by decide
  have hframe : ¬ frameDone 0 := by decide
  rw [edgeAction, edgeActionWith, hsat, edgeResync_of_sat, edgeShift_of_clock (by exact hclock),
    edgeByte_of_not_done (by exact hbyte), edgeFrame_of_not_done (by exact hframe)]
  rfl

/-! ## The edge that completes a frame -/

/-- BYTE after a data edge: the interval classified and shifted in (R199, R200). -/
def byteAfterDataEdge (s : State) : Byte := shiftIn s.byte (bitOf s.pulse)

/-- CMD after the edge that completes a frame: its last byte staged (R202). -/
def frameAfterLastEdge (s : State) : Vector Byte Config.frameBytes := s.cmd.setIfInBounds 7 (byteAfterDataEdge s)

/-- The 128th edge is a data edge and a byte end; it stages byte 7, and publishes if the checksum with that byte is 0 (R204 to R207). -/
theorem edgeAction_of_frameEnd {s : State} (hp : s.pulse ≠ 255) (he : s.ecnt = 127) :
    edgeAction s =
      { s with
        pulse := 0
        byte := byteAfterDataEdge s
        cmd := frameAfterLastEdge s
        sp := if s.crc ^^^ byteAfterDataEdge s = 0 then frameAfterLastEdge s else s.sp
        crc := 0
        ecnt := 0 } := by
  have hdata : dataEdge Config.dataParity s.ecnt := by rw [he]; decide
  have hframe : frameDone s.ecnt := by rw [he]; rfl
  have hindex : byteIndex s.ecnt = 7 := by rw [he]; rfl
  rw [edgeAction, edgeActionWith, edgeResync_of_ne hp, edgeShift_of_data hdata,
    edgeByte_of_done (by exact byteDone_of_frameDone hframe), Config.crcClearAtFrameEnd,
    edgeFrame_of_done (by exact hframe)]
  simp only [edgeRestart_ecnt, hindex]
  rfl

theorem frameAfterLastEdge_last (s : State) : (frameAfterLastEdge s)[7] = byteAfterDataEdge s :=
  Vector.getElem_setIfInBounds_self _

/-- The seven bytes staged before the last stay (R202). -/
theorem frameAfterLastEdge_of_ne (s : State) {j : Fin 8} (h : j ≠ 7) : (frameAfterLastEdge s)[j] = s.cmd[j] :=
  Vector.getElem_setIfInBounds_ne _ (fun k => h (Fin.ext k.symm))

/-- Settles O31: SP takes the whole of CMD, last byte included, or nothing of it. -/
theorem validFrameIsPublishedWhole : Obligations.ValidFrameIsPublishedWhole := by
  intro s hrun hp he
  refine ⟨edgeAction s, exec_edge_of_run hrun, ?_, ?_, ?_, edgeAction_only s⟩ <;>
    rw [edgeAction_of_frameEnd hp he]
  · exact fun hvalid j => by rw [if_pos hvalid]
  · exact fun hinvalid => if_neg hinvalid
  · exact frameAfterLastEdge_last s

/-- Settles O32: a checksum other than 0 takes step 6's other branch, which keeps SP; a resync edge reaches neither step 5 nor the
publish. -/
theorem invalidFrameIsDropped : Obligations.InvalidFrameIsDropped := by
  intro s hrun
  refine ⟨edgeAction s, exec_edge_of_run hrun, fun hp he => ?_, fun hp => ?_⟩
  · rw [edgeAction_of_frameEnd hp he]
    exact fun hinvalid => ⟨if_neg hinvalid, fun _ => frameAfterLastEdge_of_ne s, frameAfterLastEdge_last s⟩
  · rw [edgeAction_of_resync hp]
    exact ⟨rfl, rfl⟩

end Sys2Proof.Machine
end

section
/-! LAWS. The control loop over whole iterations (45_control_loop.md R231, R252): a scan and the eleven LSTEPs after it as one function of
the state, the duty of a channel as a fold of the control law over the scans, and the three regimes of that law. -/

namespace Sys2Proof.Machine

/-! ## The regimes of the control law -/

theorem adjust_of_over {im il vm vl : Byte} (h : overLimit im il vm vl) (period d : TimerWord) :
    adjust period d im il vm vl = dec0 d := if_pos h

theorem adjust_of_under {im il vm vl : Byte} (h : underLimits im il vm vl) (period d : TimerWord) :
    adjust period d im il vm vl = incP period d := by
  have hnot : ¬ overLimit im il vm vl := by
    simp only [underLimits, overLimit] at h ⊢
    omega
  rw [adjust, if_neg hnot, if_pos h]

theorem adjust_of_between {im il vm vl : Byte} (hover : ¬ overLimit im il vm vl) (hunder : ¬ underLimits im il vm vl)
    (period d : TimerWord) : adjust period d im il vm vl = d := by
  rw [adjust, if_neg hover, if_neg hunder]

/-! ## One scan -/

/-- A running ADCDONE is the completion handler (R171). -/
theorem exec_adcdone_of_run {s : State} (h : s.run = true) (r : Sample) :
    exec (.adcdone r) s = .next (sampleAction r s) := whenRunning_of_run h (sampleAction r)

/-- The completion handler does not write RUN. -/
theorem sampleAction_run (r : Sample) (s : State) : (sampleAction r s).run = s.run := by
  unfold sampleAction
  split <;> rfl

/-- Four samples put in one after another are the whole of SMP. -/
theorem set_all_samples (v m : Vector Sample Config.nsamp) :
    (((v.set 0 m[0]).set 1 m[1]).set 2 m[2]).set 3 m[3] = m := by
  ext i hi
  interval_cases i <;> simp

/-- Four completions from CH = 0 replace SMP whole and bring CH back to 0 (R112, R174). -/
theorem sampleAction_four_times {s : State} (hconv : s.conv = true) (hch : s.ch = 0) (m : Vector Sample Config.nsamp) :
    sampleAction m[3] (sampleAction m[2] (sampleAction m[1] (sampleAction m[0] s))) = { s with smp := m } := by
  conv_rhs => rw [← set_all_samples s.smp m]
  obtain ⟨⟩ := s
  cases hconv
  cases hch
  simp only [sampleAction, if_true]
  rfl

theorem runOps_adcScan {s : State} (hrun : s.run = true) (hconv : s.conv = true) (hch : s.ch = 0)
    (m : Vector Sample Config.nsamp) :
    runOps (adcScan m[0] m[1] m[2] m[3]) s = .next { s with smp := m } := by
  rw [← sampleAction_four_times hconv hch m, adcScan]
  iterate 4 rw [runOps_cons_of_next (exec_adcdone_of_run (by simp only [sampleAction_run, hrun]) _)]
  rfl

/-! ## One iteration of the loop -/

theorem exec_lstep_of_run {s : State} (h : s.run = true) : exec .lstep s = .next (loopAction s) :=
  whenRunning_of_run h loopAction

/-- No phase writes RUN. -/
theorem loopAction_run (s : State) : (loopAction s).run = s.run := by
  rw [loopAction, advancePhase_run]
  cases s.lph <;> rfl

theorem runOps_replicate_lstep (n : Nat) {s : State} (h : s.run = true) :
    runOps (List.replicate n .lstep) s = .next (loopAction^[n] s) := by
  induction n generalizing s with
  | zero => rfl
  | succ n ih =>
    rw [List.replicate_succ, runOps_cons_of_next (exec_lstep_of_run h), ih ((loopAction_run s).trans h),
      Function.iterate_succ_apply]

/-- The control law of channel c on a scan of four samples and the limits SP holds (R248). -/
def adjustOnScan (s : State) (c : Fin Config.nchan) (d : TimerWord) (m : Vector Sample Config.nsamp) : TimerWord :=
  adjust Config.period d m[currentIndex c] (readSetpoint s (currentIndex c))
    m[voltageIndex c] (readSetpoint s (voltageIndex c))

/-- A whole iteration (R231): both duties adjusted, the second channel's operands left in the latches. -/
def iterationAction (s : State) : State :=
  { s with
    duty1 := adjustOnScan s 0 s.duty1 s.smp
    duty2 := adjustOnScan s 1 s.duty2 s.smp
    aIm := readSample s (currentIndex 1)
    aIl := readSetpoint s (currentIndex 1)
    aVm := readSample s (voltageIndex 1)
    aVl := readSetpoint s (voltageIndex 1) }

/-- The eleven phases in their order, from phase 0 back to it. -/
theorem loopAction_iterate_eleven {s : State} (h : s.lph = .ldIm1) : loopAction^[11] s = iterationAction s := by
  obtain ⟨⟩ := s
  subst h
  rfl

theorem runOps_loopIter {s : State} (hrun : s.run = true) (hlph : s.lph = .ldIm1) :
    runOps loopIter s = .next (iterationAction s) :=
  (runOps_replicate_lstep 11 hrun).trans (congrArg _ (loopAction_iterate_eleven hlph))

/-! ## Any number of iterations, each after a scan of its own -/

/-- Where an iteration with a scan of its own starts: running, a conversion armed, both sequencers at their beginning. -/
structure AtIterationStart (s : State) : Prop where
  run_eq : s.run = true
  conv_eq : s.conv = true
  ch_eq : s.ch = 0
  lph_eq : s.lph = .ldIm1

/-- A scan, then an iteration on it. -/
def regulateOnce (s : State) (m : Vector Sample Config.nsamp) : State := iterationAction { s with smp := m }

theorem regulateOnce_start {s : State} (h : AtIterationStart s) (m : Vector Sample Config.nsamp) :
    AtIterationStart (regulateOnce s m) := ⟨h.run_eq, h.conv_eq, h.ch_eq, h.lph_eq⟩

theorem regulate_cons (m : Vector Sample Config.nsamp) (scans : List (Vector Sample Config.nsamp)) :
    regulate (m :: scans) = (adcScan m[0] m[1] m[2] m[3] ++ loopIter) ++ regulate scans := List.flatMap_cons

theorem runOps_scan_loopIter {s : State} (h : AtIterationStart s) (m : Vector Sample Config.nsamp) :
    runOps (adcScan m[0] m[1] m[2] m[3] ++ loopIter) s = .next (regulateOnce s m) := by
  rw [runOps_append_of_next (runOps_adcScan h.run_eq h.conv_eq h.ch_eq m)]
  exact runOps_loopIter h.run_eq h.lph_eq

theorem runOps_regulate (scans : List (Vector Sample Config.nsamp)) {s : State} (h : AtIterationStart s) :
    runOps (regulate scans) s = .next (scans.foldl regulateOnce s) := by
  induction scans generalizing s with
  | nil => rfl
  | cons m scans ih =>
    rw [regulate_cons, runOps_append_of_next (runOps_scan_loopIter h m), ih (regulateOnce_start h m), List.foldl_cons]

theorem dutyOf_regulateOnce (s : State) (m : Vector Sample Config.nsamp) (c : Fin Config.nchan) :
    dutyOf (regulateOnce s m) c = adjustOnScan s c (dutyOf s c) m := by
  fin_cases c <;> rfl

/-- SP stands during the iterations, so a channel's duty is the law with the limits of the start, folded over the scans. -/
theorem dutyOf_foldl_regulateOnce (c : Fin Config.nchan) (scans : List (Vector Sample Config.nsamp)) (s : State) :
    dutyOf (scans.foldl regulateOnce s) c = scans.foldl (adjustOnScan s c) (dutyOf s c) := by
  induction scans generalizing s with
  | nil => rfl
  | cons m scans ih =>
    have hlimits : adjustOnScan (regulateOnce s m) c = adjustOnScan s c := rfl
    rw [List.foldl_cons, List.foldl_cons, ih, hlimits, dutyOf_regulateOnce]

/-! ## The hysteresis laws on a fold -/

/-- R252 (a): one count down per scan, and 0 is kept. -/
theorem foldl_toNat_of_dec0 {α : Type} {f : TimerWord → α → TimerWord} {scans : List α}
    (h : ∀ m ∈ scans, ∀ d, f d m = dec0 d) (d : TimerWord) :
    (scans.foldl f d).toNat = d.toNat - scans.length := by
  induction scans generalizing d with
  | nil => rfl
  | cons m scans ih =>
    obtain ⟨hm, hscans⟩ := List.forall_mem_cons.mp h
    rw [List.foldl_cons, ih hscans, hm, dec0_toNat, List.length_cons]
    omega

/-- R252 (b): a fold of steps that keep the duty keeps it. -/
theorem foldl_of_keep {α : Type} {f : TimerWord → α → TimerWord} {scans : List α}
    (h : ∀ m ∈ scans, ∀ d, f d m = d) (d : TimerWord) :
    scans.foldl f d = d := by
  induction scans generalizing d with
  | nil => rfl
  | cons m scans ih =>
    obtain ⟨hm, hscans⟩ := List.forall_mem_cons.mp h
    rw [List.foldl_cons, hm, ih hscans]

/-- R252 (c): one count up per scan as far as PERIOD, and PERIOD is kept. -/
theorem foldl_toNat_of_incP {α : Type} {f : TimerWord → α → TimerWord} {scans : List α} {period : TimerWord}
    (h : ∀ m ∈ scans, ∀ d, f d m = incP period d) {d : TimerWord}
    (hd : d.toNat ≤ period.toNat) :
    (scans.foldl f d).toNat = min (d.toNat + scans.length) period.toNat := by
  induction scans generalizing d with
  | nil => exact (min_eq_left hd).symm
  | cons m scans ih =>
    obtain ⟨hm, hscans⟩ := List.forall_mem_cons.mp h
    have hstep : (f d m).toNat = min (d.toNat + 1) period.toNat := by rw [hm, incP_toNat]
    rw [List.foldl_cons, ih hscans (hstep ▸ min_le_right _ _), hstep, List.length_cons]
    omega

/-- Settles O47: the run is a fold of `regulateOnce`, the duty a fold of the control law; each clause fixes the branch the law takes on
every scan, and induction on the scans counts the steps. -/
theorem hysteresisLawsOverIterations : Obligations.HysteresisLawsOverIterations := by
  intro c scans s hrun hconv hch hlph
  refine ⟨scans.foldl regulateOnce s, runOps_regulate scans ⟨hrun, hconv, hch, hlph⟩, ?_⟩
  rw [dutyOf_foldl_regulateOnce]
  refine ⟨fun hover => ?_, fun hinside => ?_, fun hunder hle => ?_⟩
  · exact foldl_toNat_of_dec0 (fun m hm => adjust_of_over (hover m hm) _) _
  · refine foldl_of_keep (fun m hm => ?_) _
    obtain ⟨hi, hiBand, hv, hvBand⟩ := hinside m hm
    exact adjust_of_between (fun hover => hover.elim (Nat.not_lt.mpr hi) (Nat.not_lt.mpr hv))
      (fun hunder => Nat.not_lt.mpr hiBand hunder.1) _
  · exact foldl_toNat_of_incP (fun m hm => adjust_of_under (hunder m hm) _) hle

end Sys2Proof.Machine
end

section
/-! LAWS. The event words (30_encoding.md R101 to R104): each row of the opcode map selects the word of one operation, so decoding a word
and encoding an operation undo each other; and what a step does with the stimulus. -/

namespace Sys2Proof.Machine

/-! ## The fields of an operation's word -/

/-- The facts made per operation, for any operation. -/
theorem encodingFields (i : Instr) : Laws.EncodingFields.Statement i := by
  cases i with
  | idle => exact Laws.EncodingFields.idle
  | reset => exact Laws.EncodingFields.reset
  | init => exact Laws.EncodingFields.init
  | clk => exact Laws.EncodingFields.clk
  | tick => exact Laws.EncodingFields.tick
  | edge => exact Laws.EncodingFields.edge
  | adcdone r => exact Laws.EncodingFields.adcdone r
  | lstep => exact Laws.EncodingFields.lstep

theorem fieldsOf_encode (i : Instr) : fieldsOf (encode i) = ⟨opcodeOf i, 0, operandOf i⟩ := (encodingFields i).2.1

theorem fieldsOf_encode_wf (i : Instr) : (fieldsOf (encode i)).wf = true := (encodingFields i).2.2

theorem imm8Field_encode (i : Instr) : imm8Field (encode i) = operandOf i :=
  congrArg EventFields.imm8 (fieldsOf_encode i)

/-- An operation is known by its op code and its operand (R100, R103). -/
theorem operationOf_opcodeOf (i : Instr) : operationOf (opcodeOf i) (operandOf i) = some i := by
  cases i <;> rfl

theorem encode_injective {i j : Instr} (h : encode i = encode j) : i = j := by
  have hfields := congrArg fieldsOf h
  rw [fieldsOf_encode, fieldsOf_encode, EventFields.mk.injEq] at hfields
  obtain ⟨hop, -, himm⟩ := hfields
  have hi := operationOf_opcodeOf i
  rw [hop, himm, operationOf_opcodeOf] at hi
  exact (Option.some.inj hi).symm

/-! ## The rows of the opcode map -/

theorem OpcodeRow.selects_iff (r : OpcodeRow) (w : Word) : r.selects w = true ↔ w &&& r.mask = r.pattern :=
  decide_eq_true_iff

/-- An N-format row selects its pattern and no other word (R102). -/
theorem selects_nFormat_iff (pattern : Word) (op : BitVec 4) (w : Word) :
    (OpcodeRow.mk .n pattern op).selects w = true ↔ pattern = w := by
  have hmask : w &&& maskN = w := BitVec.and_allOnes
  rw [OpcodeRow.selects_iff, OpcodeRow.mask, hmask, eq_comm]

theorem hiByte_and_maskI (w : Word) : hiByte (w &&& maskI) = hiByte w :=
  BitVec.extractLsb'_and.trans BitVec.and_allOnes

theorem loByte_and_maskI (w : Word) : loByte (w &&& maskI) = 0 :=
  BitVec.extractLsb'_and.trans BitVec.and_zero

/-- The I-format row fixes the high byte and leaves the operand free (R102). -/
theorem selects_iFormat_iff (w : Word) :
    (OpcodeRow.mk .i 0x6000 0x6).selects w = true ↔ encode (.adcdone (imm8Field w)) = w := by
  have hpattern : (0x6000 : Word) = pair 0x60 0 := by decide
  have hopcode : (0x6 : BitVec 4) ++ (0 : BitVec 4) = (0x60 : Byte) := by decide
  have hword : encode (.adcdone (imm8Field w)) = pair 0x60 (loByte w) := congrArg (· ++ loByte w) hopcode
  rw [OpcodeRow.selects_iff, OpcodeRow.mask, hword, hpattern]
  constructor <;> intro h
  · have hhigh := congrArg hiByte h
    rw [hiByte_and_maskI, hiByte_pair] at hhigh
    rw [← hhigh, pair_hiByte_loByte]
  · have hhigh := congrArg hiByte h
    rw [hiByte_pair] at hhigh
    rw [← pair_hiByte_loByte (w &&& maskI), hiByte_and_maskI, loByte_and_maskI, hhigh]

/-- Every row of the map names an operation, and selects the word of that operation alone (R103). -/
theorem row_selects_one_operation {r : OpcodeRow} (hr : r ∈ opcodeRows) (w : Word) :
    ∃ i, operationOf r.op (imm8Field w) = some i ∧ (r.selects w = true ↔ encode i = w) := by
  simp only [opcodeRows, List.mem_cons, List.not_mem_nil, or_false] at hr
  rcases hr with rfl | rfl | rfl | rfl | rfl | rfl | rfl | rfl
  · exact ⟨.idle, rfl, selects_nFormat_iff _ _ w⟩
  · exact ⟨.reset, rfl, selects_nFormat_iff _ _ w⟩
  · exact ⟨.init, rfl, selects_nFormat_iff _ _ w⟩
  · exact ⟨.clk, rfl, selects_nFormat_iff _ _ w⟩
  · exact ⟨.tick, rfl, selects_nFormat_iff _ _ w⟩
  · exact ⟨.edge, rfl, selects_nFormat_iff _ _ w⟩
  · exact ⟨.adcdone (imm8Field w), rfl, selects_iFormat_iff w⟩
  · exact ⟨.lstep, rfl, selects_nFormat_iff _ _ w⟩

/-- Every operation has a row (R103). -/
theorem exists_row_of_operation (i : Instr) : ∃ r ∈ opcodeRows, r.op = opcodeOf i := by
  cases i <;> simp [opcodeRows, opcodeOf]

theorem exists_row_selects_encode (i : Instr) : ∃ r ∈ opcodeRows, r.selects (encode i) = true := by
  obtain ⟨r, hr, hop⟩ := exists_row_of_operation i
  obtain ⟨j, hj, hselects⟩ := row_selects_one_operation hr (encode i)
  rw [hop, imm8Field_encode, operationOf_opcodeOf] at hj
  exact ⟨r, hr, hselects.mpr (congrArg encode (Option.some.inj hj).symm)⟩

/-! ## Decoding a word -/

theorem decodeWord_of_selects {w : Word} {r : OpcodeRow} (hfind : opcodeRows.find? (fun r => r.selects w) = some r)
    {i : Instr} (hi : operationOf r.op (imm8Field w) = some i) : decodeWord w = .ok i := by
  simp only [decodeWord, hfind, hi]

/-- Where no row selects the word it is refused, on the ground R104 gives. -/
theorem decodeWord_of_find?_none {w : Word} (hfind : opcodeRows.find? (fun r => r.selects w) = none) :
    decodeWord w = .error (rejectionOf w) := by
  simp only [decodeWord, hfind]

/-- A word is the word of an operation, which it decodes to, or it is refused. -/
theorem decodeWord_cases (w : Word) :
    (∃ i, encode i = w ∧ decodeWord w = .ok i) ∨ (∀ i, encode i ≠ w) ∧ decodeWord w = .error (rejectionOf w) := by
  cases hfind : opcodeRows.find? (fun r => r.selects w) with
  | some r =>
    obtain ⟨i, hi, hselects⟩ := row_selects_one_operation (List.mem_of_find?_eq_some hfind) w
    have hsel : r.selects w = true := List.find?_some (p := (OpcodeRow.selects · w)) hfind
    exact .inl ⟨i, hselects.mp hsel, decodeWord_of_selects hfind hi⟩
  | none =>
    refine .inr ⟨fun i hi => ?_, decodeWord_of_find?_none hfind⟩
    obtain ⟨r, hr, hselects⟩ := exists_row_selects_encode i
    exact List.find?_eq_none.mp hfind r hr (hi ▸ hselects)

theorem decodeWord_eq_ok_iff (w : Word) (i : Instr) : decodeWord w = .ok i ↔ encode i = w := by
  obtain ⟨j, hj, hdec⟩ | ⟨hnone, hdec⟩ := decodeWord_cases w
  · rw [hdec, ← hj, Except.ok.injEq]
    exact ⟨fun h => congrArg encode h.symm, fun h => (encode_injective h).symm⟩
  · rw [hdec]
    exact ⟨nofun, fun h => absurd h (hnone i)⟩

theorem decodeWord_encode (i : Instr) : decodeWord (encode i) = .ok i := (decodeWord_eq_ok_iff _ i).mpr rfl

/-- Words whose fields break R101 or R102 are no operation's. -/
theorem decodeWord_of_not_wf {w : Word} (h : (fieldsOf w).wf = false) : decodeWord w = .error (rejectionOf w) := by
  obtain ⟨i, rfl, -⟩ | ⟨-, hdec⟩ := decodeWord_cases w
  · exact absurd (fieldsOf_encode_wf i) (by rw [h]; decide)
  · exact hdec

theorem decode_of_decodeWord {hi lo : Byte} {i : Instr} (h : decodeWord (hi ++ lo) = .ok i) (rest : List Byte) :
    decode (hi :: lo :: rest) = .ok (i, rest) := by
  simp only [decode, h]

theorem decode_of_decodeWord_error {hi lo : Byte} {e : DecodeError} (h : decodeWord (hi ++ lo) = .error e)
    (rest : List Byte) : decode (hi :: lo :: rest) = .error e := by
  simp only [decode, h]

/-- Settles O2: the two bytes of a word are put together again, and the word of an operation is selected by that operation's row only. -/
theorem decodeEncodeRoundTrip : Obligations.DecodeEncodeRoundTrip := by
  intro i rest
  have hword : hiByte (encode i) ++ loByte (encode i) = encode i := pair_hiByte_loByte (encode i)
  exact decode_of_decodeWord ((congrArg decodeWord hword).trans (decodeWord_encode i)) rest

/-- Settles O3: a row selects one word per operation it names, and an operation is known by its word. -/
theorem assignedWordsAreTheEncodings : Obligations.AssignedWordsAreTheEncodings := decodeWord_eq_ok_iff

/-- The op codes of the rows differ (R103). -/
theorem opcodeRow_eq_of_op_eq :
    ∀ r₁ ∈ opcodeRows, ∀ r₂ ∈ opcodeRows, r₁.op = r₂.op → r₁ = r₂ := by decide

theorem opcodeOf_of_operationOf {r : OpcodeRow} (hr : r ∈ opcodeRows) {b : Byte} {i : Instr}
    (h : operationOf r.op b = some i) : opcodeOf i = r.op := by
  simp only [opcodeRows, List.mem_cons, List.not_mem_nil, or_false] at hr
  rcases hr with rfl | rfl | rfl | rfl | rfl | rfl | rfl | rfl <;> cases h <;> rfl

/-- Settles O4: two rows that select one word name the same operation, and its op code is that of one row. -/
theorem opcodeRowsAreDisjoint : Obligations.OpcodeRowsAreDisjoint := by
  intro w r₁ r₂ hr₁ hr₂ h₁ h₂
  obtain ⟨i, hi, hiw⟩ := row_selects_one_operation hr₁ w
  obtain ⟨j, hj, hjw⟩ := row_selects_one_operation hr₂ w
  have hij : i = j := encode_injective ((hiw.mp h₁).trans (hjw.mp h₂).symm)
  subst hij
  exact opcodeRow_eq_of_op_eq r₁ hr₁ r₂ hr₂
    ((opcodeOf_of_operationOf hr₁ hi).symm.trans (opcodeOf_of_operationOf hr₂ hj))

/-- Settles O1: the nine words are encodings, and each of the three others breaks one check of R104. -/
theorem listedWordsDecode : Obligations.ListedWordsDecode :=
  ⟨decodeWord_encode .idle, decodeWord_encode .reset, decodeWord_encode .init, decodeWord_encode .clk,
    decodeWord_encode .tick, decodeWord_encode .edge, decodeWord_encode (.adcdone 55), decodeWord_encode (.adcdone 255),
    decodeWord_encode .lstep, decodeWord_of_not_wf rfl, decodeWord_of_not_wf rfl, decodeWord_of_not_wf rfl⟩

/-! ## The step -/

theorem step_of_decode {s : State} {i : Instr} {rest : List Byte} (h : decode s.stim = .ok (i, rest)) :
    step s = exec i (takeWord s rest) := by
  simp only [step, fetch_of_decode h]

/-- Settles O6: the fetch takes the decoded word and nothing else. -/
theorem stepRunsTheDecodedOperation : Obligations.StepRunsTheDecodedOperation := fun _ _ _ h => step_of_decode h

/-- A word without operation is refused as a reserved word, on each of R104's grounds. -/
theorem refusalAt_rejectionOf (pos : Nat) (w : Word) : refusalAt pos (rejectionOf w) = .reservedWord pos w := by
  simp only [rejectionOf]
  split
  · rfl
  · split <;> rfl

/-- Settles O7: the decoder's ground for the refusal names the word, and the fetch adds the position. -/
theorem reservedWordsAreRefused : Obligations.ReservedWordsAreRefused := by
  intro s hi lo rest hstim hwf
  have hdec : decode s.stim = .error (rejectionOf (hi ++ lo)) :=
    hstim ▸ decode_of_decodeWord_error (decodeWord_of_not_wf hwf) rest
  simp only [step, fetch_of_error hdec, refusalAt_rejectionOf]

end Sys2Proof.Machine
end

section
/-! LAWS. What an EDGE can do (44_frame_decoder.md R197), said once: five cases, told apart by the interval and the edge count alone. -/

namespace Sys2Proof.Machine

/-! ## The conditions, as arithmetic -/

theorem byteDone_iff (ecnt : Byte) : byteDone ecnt ↔ (ecnt.toNat + 1) % 16 = 0 := Iff.rfl

theorem frameDone_iff (ecnt : Byte) : frameDone ecnt ↔ ecnt.toNat + 1 = 128 := Iff.rfl

theorem ecnt_eq_127_iff (ecnt : Byte) : ecnt = 127 ↔ ecnt.toNat + 1 = 128 := by
  rw [← BitVec.toNat_inj]
  exact ⟨fun h => congrArg (· + 1) h, fun h => Nat.succ.inj h⟩

/-- The next edge count, away from the end of its eight bits. -/
theorem nextCount_toNat {ecnt : Byte} (h : ecnt.toNat ≤ 127) : (BitVec.ofNat 8 (ecnt.toNat + 1)).toNat = ecnt.toNat + 1 := by
  rw [BitVec.toNat_ofNat, Nat.mod_eq_of_lt (by omega)]

theorem byteIndex_eq (ecnt : Byte) : byteIndex ecnt = (ecnt.toNat + 1) / 16 - 1 := rfl

/-- BYTE after a data edge as a number: a 1 for an interval below 5 (R199, R200). -/
theorem byteAfterDataEdge_toNat (s : State) :
    (byteAfterDataEdge s).toNat = (2 * s.byte.toNat + (if s.pulse.toNat < 5 then 1 else 0)) % 256 := by
  have hbit : (bitOf s.pulse).toNat = if s.pulse.toNat < 5 then 1 else 0 := Bool.cond_decide ..
  rw [byteAfterDataEdge, shiftIn_toNat, hbit]

/-! ## The cases that are neither a resync nor the end of a frame -/

/-- An edge that finds the count even restarts the interval and counts (R199, R201, R204). -/
theorem edgeAction_of_clockEdge {s : State} (hp : s.pulse ≠ 255) (he : s.ecnt.toNat % 2 = 0) :
    edgeAction s = { s with pulse := 0, ecnt := BitVec.ofNat 8 (s.ecnt.toNat + 1) } := by
  have hclock : ¬ dataEdge Config.dataParity s.ecnt := by rw [dataEdge_iff]; omega
  have hbyte : ¬ byteDone s.ecnt := by rw [byteDone_iff]; omega
  have hframe : ¬ frameDone s.ecnt := by rw [frameDone_iff]; omega
  rw [edgeAction, edgeActionWith, edgeResync_of_ne hp, edgeShift_of_clock hclock,
    edgeByte_of_not_done (by exact hbyte), edgeFrame_of_not_done (by exact hframe)]
  rfl

/-- A data edge inside a byte shifts a bit in as well (R200). -/
theorem edgeAction_of_bit {s : State} (hp : s.pulse ≠ 255) (hdata : s.ecnt.toNat % 2 = 1)
    (hbyte : (s.ecnt.toNat + 1) % 16 ≠ 0) :
    edgeAction s =
      { s with pulse := 0, byte := byteAfterDataEdge s, ecnt := BitVec.ofNat 8 (s.ecnt.toNat + 1) } := by
  have hframe : ¬ frameDone s.ecnt := by rw [frameDone_iff]; omega
  rw [edgeAction, edgeActionWith, edgeResync_of_ne hp, edgeShift_of_data ((dataEdge_iff _).mpr hdata),
    edgeByte_of_not_done (by exact hbyte), edgeFrame_of_not_done (by exact hframe)]
  rfl

/-- A byte end before the frame's stages the byte and folds it into the checksum (R202, R203). -/
theorem edgeAction_of_byteEnd {s : State} (hp : s.pulse ≠ 255) (hbyte : (s.ecnt.toNat + 1) % 16 = 0)
    (hframe : s.ecnt.toNat + 1 ≠ 128) :
    edgeAction s =
      { s with
        pulse := 0
        byte := byteAfterDataEdge s
        cmd := s.cmd.setIfInBounds (byteIndex s.ecnt) (byteAfterDataEdge s)
        crc := s.crc ^^^ byteAfterDataEdge s
        ecnt := BitVec.ofNat 8 (s.ecnt.toNat + 1) } := by
  have hdata : dataEdge Config.dataParity s.ecnt := by rw [dataEdge_iff]; omega
  rw [edgeAction, edgeActionWith, edgeResync_of_ne hp, edgeShift_of_data hdata,
    edgeByte_of_done (by exact hbyte), edgeFrame_of_not_done (by exact hframe)]
  rfl

/-! ## The five cases -/

/-- Everything an edge can do (R208 with its bit class split by the parity of the count). -/
inductive EdgeStep (s : State) : State → Prop where
  | resync (hp : s.pulse = 255) : EdgeStep s { s with ecnt := 1, crc := 0, pulse := 0 }
  | clock (hp : s.pulse ≠ 255) (he : s.ecnt.toNat % 2 = 0) :
    EdgeStep s { s with pulse := 0, ecnt := BitVec.ofNat 8 (s.ecnt.toNat + 1) }
  | bit (hp : s.pulse ≠ 255) (hdata : s.ecnt.toNat % 2 = 1) (hbyte : (s.ecnt.toNat + 1) % 16 ≠ 0) :
    EdgeStep s { s with pulse := 0, byte := byteAfterDataEdge s, ecnt := BitVec.ofNat 8 (s.ecnt.toNat + 1) }
  | byteEnd (hp : s.pulse ≠ 255) (hbyte : (s.ecnt.toNat + 1) % 16 = 0) (hframe : s.ecnt.toNat + 1 ≠ 128) :
    EdgeStep s
      { s with
        pulse := 0
        byte := byteAfterDataEdge s
        cmd := s.cmd.setIfInBounds (byteIndex s.ecnt) (byteAfterDataEdge s)
        crc := s.crc ^^^ byteAfterDataEdge s
        ecnt := BitVec.ofNat 8 (s.ecnt.toNat + 1) }
  | frameEnd (hp : s.pulse ≠ 255) (he : s.ecnt = 127) :
    EdgeStep s
      { s with
        pulse := 0
        byte := byteAfterDataEdge s
        cmd := frameAfterLastEdge s
        sp := if s.crc ^^^ byteAfterDataEdge s = 0 then frameAfterLastEdge s else s.sp
        crc := 0
        ecnt := 0 }

/-- The five cases are exclusive: a step that one of them describes is the edge action. -/
theorem EdgeStep.eq_edgeAction {s t : State} (h : EdgeStep s t) : edgeAction s = t := by
  cases h with
  | resync hp => exact edgeAction_of_resync hp
  | clock hp he => exact edgeAction_of_clockEdge hp he
  | bit hp hdata hbyte => exact edgeAction_of_bit hp hdata hbyte
  | byteEnd hp hbyte hframe => exact edgeAction_of_byteEnd hp hbyte hframe
  | frameEnd hp he => exact edgeAction_of_frameEnd hp he

/-- The five cases are all there are. -/
theorem exists_edgeStep (s : State) : ∃ t, EdgeStep s t := by
  by_cases hp : s.pulse = 255
  · exact ⟨_, .resync hp⟩
  by_cases he : s.ecnt.toNat % 2 = 0
  · exact ⟨_, .clock hp he⟩
  by_cases hbyte : (s.ecnt.toNat + 1) % 16 = 0
  · by_cases hframe : s.ecnt.toNat + 1 = 128
    · exact ⟨_, .frameEnd hp ((ecnt_eq_127_iff _).mpr hframe)⟩
    · exact ⟨_, .byteEnd hp hbyte hframe⟩
  · exact ⟨_, .bit hp (Nat.mod_two_ne_zero.mp he) hbyte⟩

theorem edgeStep_edgeAction (s : State) : EdgeStep s (edgeAction s) := by
  obtain ⟨t, h⟩ := exists_edgeStep s
  rwa [h.eq_edgeAction]

/-- A running EDGE takes one of the five cases. -/
theorem exec_edge_edgeStep {s : State} (hrun : s.run = true) : ∃ t, exec .edge s = .next t ∧ EdgeStep s t :=
  ⟨edgeAction s, exec_edge_of_run hrun, edgeStep_edgeAction s⟩

/-! ## The decoder apart from the rest of the block -/

/-- The state s with the decoder's registers of d (R38's EDGE column). -/
def withDecoder (s d : State) : State :=
  { s with pulse := d.pulse, ecnt := d.ecnt, byte := d.byte, crc := d.crc, cmd := d.cmd, sp := d.sp }

/-- What an edge does to the decoder does not depend on the rest of the block. -/
theorem EdgeStep.withDecoder {d d' : State} (h : EdgeStep d d') (s : State) :
    EdgeStep (withDecoder s d) (withDecoder s d') := by
  cases h with
  | resync hp => exact .resync hp
  | clock hp he => exact .clock hp he
  | bit hp hdata hbyte => exact .bit hp hdata hbyte
  | byteEnd hp hbyte hframe => exact .byteEnd hp hbyte hframe
  | frameEnd hp he => exact .frameEnd hp he

theorem edgeAction_withDecoder (s d : State) : edgeAction (withDecoder s d) = withDecoder s (edgeAction d) :=
  ((edgeStep_edgeAction d).withDecoder s).eq_edgeAction

theorem edgeAction_eq_withDecoder (s : State) : edgeAction s = withDecoder s (edgeAction s) := edgeAction_only s

/-! ## The statements about one edge -/

/-- Settles O26: the closed form of a resync edge. -/
theorem resyncEdgeStartsAFrame : Obligations.ResyncEdgeStartsAFrame := fun _ hrun hp =>
  ⟨_, (exec_edge_of_run hrun).trans (congrArg _ (edgeAction_of_resync hp)), rfl, rfl, rfl, rfl⟩

/-- Settles O27: of the five cases the count's parity leaves the clock edge, which keeps BYTE, or the three data edges, which shift. -/
theorem dataEdgeShiftsTheClassifiedBit : Obligations.DataEdgeShiftsTheClassifiedBit := by
  intro s hrun hne
  obtain ⟨t, hexec, hstep⟩ := exec_edge_edgeStep hrun
  refine ⟨t, hexec, ?_⟩
  cases hstep with
  | resync hp => exact absurd hp hne
  | clock _ he => exact ⟨fun hodd => by omega, fun _ => rfl⟩
  | bit _ hdata _ => exact ⟨fun _ => byteAfterDataEdge_toNat s, fun heven => by omega⟩
  | byteEnd _ hbyte _ => exact ⟨fun _ => byteAfterDataEdge_toNat s, fun heven => by omega⟩
  | frameEnd _ he => exact ⟨fun _ => byteAfterDataEdge_toNat s, fun heven => by simp [he] at heven⟩

/-- Settles O28: the count goes on in three cases, and the resync edge and the frame end set it. -/
theorem edgeCountReturnsToZeroAfter128 : Obligations.EdgeCountReturnsToZeroAfter128 := by
  intro s hrun hle
  obtain ⟨t, hexec, hstep⟩ := exec_edge_edgeStep hrun
  refine ⟨t, hexec, ?_⟩
  cases hstep with
  | resync hp => rw [if_pos hp]; rfl
  | clock hp he => rw [if_neg hp, if_neg (by omega)]; exact nextCount_toNat hle
  | bit hp _ hbyte => rw [if_neg hp, if_neg (by omega)]; exact nextCount_toNat hle
  | byteEnd hp _ hframe => rw [if_neg hp, if_neg hframe]; exact nextCount_toNat hle
  | frameEnd hp he => rw [if_neg hp, if_pos ((ecnt_eq_127_iff _).mp he)]; rfl

/-- Putting a byte at an index CMD has changes that element alone. -/
theorem getElem_setIfInBounds_frame (v : Vector Byte 8) (k : Fin 8) (b : Byte) :
    (v.setIfInBounds k.val b)[k] = b ∧ ∀ j : Fin 8, j ≠ k → (v.setIfInBounds k.val b)[j] = v[j] :=
  ⟨Vector.getElem_setIfInBounds_self _, fun _ hj => Vector.getElem_setIfInBounds_ne _ (fun h => hj (Fin.ext h.symm))⟩

/-- Settles O29: only the two byte-end cases write CMD, at the index the count gives. -/
theorem completedByteIsStaged : Obligations.CompletedByteIsStaged := by
  intro s hrun hle
  obtain ⟨t, hexec, hstep⟩ := exec_edge_edgeStep hrun
  refine ⟨t, hexec, ?_⟩
  cases hstep with
  | resync hp => exact ⟨fun hne => absurd hp hne, fun _ => rfl⟩
  | clock hp he => exact ⟨fun _ hbyte => by omega, fun _ => rfl⟩
  | bit hp _ hbyte => exact ⟨fun _ hdone => absurd hdone hbyte, fun _ => rfl⟩
  | byteEnd hp hbyte _ =>
    refine ⟨fun _ _ => ⟨⟨byteIndex s.ecnt, by rw [byteIndex_eq]; omega⟩, byteIndex_eq _, ?_⟩, fun h => ?_⟩
    · obtain ⟨hself, hothers⟩ := getElem_setIfInBounds_frame s.cmd ⟨byteIndex s.ecnt, _⟩ (byteAfterDataEdge s)
      exact ⟨hself, byteAfterDataEdge_toNat s, hothers⟩
    · exact h.elim (absurd · hp) (absurd hbyte)
  | frameEnd hp he =>
    have hcount := (ecnt_eq_127_iff _).mp he
    refine ⟨fun _ _ => ⟨7, by rw [hcount]; rfl, ?_⟩, fun h => h.elim (absurd · hp) (by omega)⟩
    exact ⟨frameAfterLastEdge_last s, byteAfterDataEdge_toNat s, fun _ => frameAfterLastEdge_of_ne s⟩

/-- Settles O30: the two byte-end cases fold BYTE in; the frame end compares the result with 0. -/
theorem completedByteIsFoldedIntoTheChecksum : Obligations.CompletedByteIsFoldedIntoTheChecksum := by
  intro s hrun hle hne
  obtain ⟨t, hexec, hstep⟩ := exec_edge_edgeStep hrun
  refine ⟨t, hexec, ?_⟩
  cases hstep with
  | resync hp => exact absurd hp hne
  | clock _ he => exact ⟨by omega, by omega, by omega, fun _ => rfl⟩
  | bit _ _ hbyte => exact ⟨by omega, by omega, by omega, fun _ => rfl⟩
  | byteEnd _ hbyte hframe => exact ⟨fun _ _ => rfl, by omega, by omega, fun h => absurd hbyte h⟩
  | frameEnd _ he =>
    have hcount := (ecnt_eq_127_iff _).mp he
    exact ⟨fun _ h => absurd hcount h, fun _ hvalid => if_pos hvalid, fun _ hinvalid => if_neg hinvalid, by omega⟩

/-- Settles O33: at a count of 127 the edge ends the frame, or it is a resync edge; both clear the checksum. -/
theorem checksumIsClearedAtFrameEnd : Obligations.ChecksumIsClearedAtFrameEnd := by
  intro s hrun he
  by_cases hp : s.pulse = 255
  · exact ⟨_, exec_edge_of_run hrun, by rw [edgeAction_of_resync hp]⟩
  · exact ⟨_, exec_edge_of_run hrun, by rw [edgeAction_of_frameEnd hp he]⟩

end Sys2Proof.Machine
end

section
/-! LAWS. Operations and their runs: the frame of each effect (R38's columns), that every operation but a second INIT has a next state, and
what a run of operations makes of RUN and of the stimulus. -/

namespace Sys2Proof.Machine

/-! ## The frame of each effect -/

/-- R38's CLK column. -/
theorem clkAction_only (s : State) :
    clkAction s = { s with cnt1 := countUp s.per1 s.cnt1, cnt2 := countUp s.per2 s.cnt2, pulse := (clkAction s).pulse } := by
  unfold clkAction
  split <;> rfl

/-- R38's ADCDONE column. -/
theorem sampleAction_only (r : Sample) (s : State) :
    sampleAction r s = { s with smp := (sampleAction r s).smp, ch := (sampleAction r s).ch, conv := (sampleAction r s).conv } := by
  unfold sampleAction
  split <;> rfl

/-- A phase writes duties and latches, whichever it is (R38's LSTEP column but for LPH). -/
theorem phaseAction_only (p : Phase) (s : State) :
    phaseAction p s =
      { s with
        duty1 := (phaseAction p s).duty1
        duty2 := (phaseAction p s).duty2
        aIm := (phaseAction p s).aIm
        aIl := (phaseAction p s).aIl
        aVm := (phaseAction p s).aVm
        aVl := (phaseAction p s).aVl } := by
  cases p <;> rfl

/-- R38's LSTEP column. -/
theorem loopAction_only (s : State) :
    loopAction s =
      { s with
        lph := nextPhase s.lph
        duty1 := (loopAction s).duty1
        duty2 := (loopAction s).duty2
        aIm := (loopAction s).aIm
        aIl := (loopAction s).aIl
        aVm := (loopAction s).aVm
        aVl := (loopAction s).aVl } :=
  congrArg advancePhase (phaseAction_only s.lph s)

theorem sampleAction_of_conv {s : State} (h : s.conv = true) (r : Sample) :
    sampleAction r s = { s with smp := s.smp.set s.ch.val r, ch := s.ch + 1, conv := true } := if_pos h

/-- R176. -/
theorem sampleAction_of_not_conv {s : State} (h : ¬ s.conv = true) (r : Sample) : sampleAction r s = s := if_neg h

theorem clkAction_of_wraps {s : State} (h : wraps s.per1 s.cnt1) : clkAction s = tickAction (countTimers s) := if_pos h

theorem clkAction_of_not_wraps {s : State} (h : ¬ wraps s.per1 s.cnt1) : clkAction s = countTimers s := if_neg h

/-! ## Operations that have a next state -/

theorem exec_of_allowed {i : Instr} {s : State} (h : ¬ (i = .init ∧ s.run = true)) : exec i s = .next (effectOf i s) := by
  rw [exec_eq, if_neg h]

theorem exec_of_ne_init {i : Instr} (h : i ≠ .init) (s : State) : exec i s = .next (effectOf i s) :=
  exec_of_allowed fun k => h k.1

theorem ne_init_of_isRunOp {i : Instr} (h : isRunOp i = true) : i ≠ .init := by
  rintro rfl
  cases h

theorem exec_of_isRunOp {i : Instr} (h : isRunOp i = true) (s : State) : exec i s = .next (effectOf i s) :=
  exec_of_ne_init (ne_init_of_isRunOp h) s

/-- Settles O9: exec answers the effect wherever it does not refuse a second INIT. -/
theorem everyOperationIsTotal : Obligations.EveryOperationIsTotal := fun i s h => ⟨effectOf i s, exec_of_allowed h⟩

/-- Settles O13: INIT's gate. -/
theorem secondInitIsRefused : Obligations.SecondInitIsRefused := by
  intro s hrun
  rw [exec_eq, if_pos ⟨rfl, hrun⟩]

/-- Settles O14: IDLE's effect is the identity. -/
theorem idleChangesNothing : Obligations.IdleChangesNothing := fun s => exec_of_ne_init (i := .idle) nofun s

/-- The five events of a running block do nothing in one that is not configured (R134). -/
theorem effectOf_of_not_run {i : Instr} (hi : isRunOp i = true) {s : State} (hrun : s.run = false) : effectOf i s = s := by
  have hgate : ¬ s.run = true := by rw [hrun]; exact Bool.false_ne_true
  cases i with
  | reset => cases hi
  | init => cases hi
  | idle => rfl
  | _ => exact if_neg hgate

theorem exec_of_not_run {i : Instr} (hi : isRunOp i = true) {s : State} (hrun : s.run = false) : exec i s = .next s := by
  rw [exec_of_isRunOp hi, effectOf_of_not_run hi hrun]

/-- Settles O15: the RUN gate stands before each of the five. -/
theorem nothingActsBeforeInit : Obligations.NothingActsBeforeInit := fun _ _ hrun =>
  ⟨exec_of_not_run rfl hrun, exec_of_not_run rfl hrun, exec_of_not_run rfl hrun, exec_of_not_run rfl hrun,
    exec_of_not_run rfl hrun⟩

/-- The inversion of a run that goes to its end. -/
theorem runOps_cons_next {i : Instr} {ops : List Instr} {s t : State} (h : runOps (i :: ops) s = .next t) :
    ∃ u, exec i s = .next u ∧ runOps ops u = .next t := by
  cases hexec : exec i s with
  | next u => exact ⟨u, rfl, by rwa [runOps_cons_of_next hexec] at h⟩
  | fault r => cases r
  | refused r => simp [runOps, hexec] at h

/-! ## RESET and INIT -/

theorem exec_reset (s : State) : exec .reset s = .next (resetBlock s) := exec_of_ne_init (i := .reset) nofun s

theorem exec_init_of_not_run {s : State} (h : s.run = false) : exec .init s = .next (configure s) :=
  exec_of_allowed fun k => Bool.false_ne_true (h.symm.trans k.2)

/-- Settles O11: RESET answers the reset state with the stimulus kept; the components are R40's. -/
theorem resetFromAnyState : Obligations.ResetFromAnyState := fun s =>
  ⟨resetBlock s, exec_reset s, rfl, rfl, rfl, rfl, rfl, rfl, rfl, rfl, rfl, rfl, rfl, rfl, rfl, rfl, rfl, rfl, rfl, rfl, rfl,
    rfl, rfl, rfl, rfl⟩

/-- Settles O12: INIT answers `configure`, whose components and whose frame are read off its definition. -/
theorem initConfiguresTheBlock : Obligations.InitConfiguresTheBlock := fun s hrun =>
  ⟨configure s, exec_init_of_not_run hrun, rfl, rfl, rfl, rfl, rfl, rfl, rfl, rfl, rfl, rfl, rfl, rfl,
    by rw [adcStart, hrun]; rfl⟩

theorem runOps_boot (s : State) : runOps boot s = .next (configure (resetBlock s)) :=
  (runOps_cons_of_next (exec_reset s) _).trans (runOps_cons_of_next (exec_init_of_not_run rfl) _)

/-- Settles O16: RESET gives the reset state, in which INIT is allowed. -/
theorem bootedState : Obligations.BootedState := fun s =>
  ⟨configure (resetBlock s), runOps_boot s, rfl, rfl, rfl, rfl, rfl, rfl, rfl, rfl, rfl, rfl, rfl, rfl, rfl, rfl, rfl, rfl, rfl,
    rfl, rfl, rfl, rfl, rfl, rfl, rfl⟩

/-! ## RUN -/

theorem effectOf_run_of_isRunOp {i : Instr} (hi : isRunOp i = true) (s : State) : (effectOf i s).run = s.run := by
  by_cases hrun : s.run = true
  · cases i with
    | idle => rfl
    | reset => cases hi
    | init => cases hi
    | clk => rw [effectOf, if_pos hrun, clkAction_only]
    | tick => rw [effectOf, if_pos hrun, tickAction_run]
    | edge => rw [effectOf, if_pos hrun, edgeAction_only s]
    | adcdone r => rw [effectOf, if_pos hrun, sampleAction_run]
    | lstep => rw [effectOf, if_pos hrun, loopAction_run]
  · rw [effectOf_of_not_run hi (Bool.not_eq_true _ ▸ hrun)]

/-- Settles O17: no effect but INIT's and RESET's writes RUN. -/
theorem runIsWrittenOnlyByInitAndReset : Obligations.RunIsWrittenOnlyByInitAndReset := by
  intro i s t hexec hne
  obtain ⟨-, rfl⟩ := (exec_next_iff i s t).mp hexec
  cases hi : isRunOp i
  · cases i with
    | init => exact .inl ⟨rfl, rfl⟩
    | reset => exact .inr ⟨rfl, rfl⟩
    | _ => cases hi
  · exact absurd (effectOf_run_of_isRunOp hi s) hne

/-- Settles O18: by induction on the operations; RUN is 0 after RESET, and after an event that found it 0 and so did nothing. -/
theorem reachableUnconfiguredStateIsReset : Obligations.ReachableUnconfiguredStateIsReset := by
  intro s hs
  induction hs with
  | reset stim pos => exact fun _ => rfl
  | step s t i _ hexec ih =>
    intro ht
    obtain ⟨-, rfl⟩ := (exec_next_iff i s t).mp hexec
    cases hi : isRunOp i
    · cases i with
      | init => cases ht
      | reset => rfl
      | _ => cases hi
    · have hrun : s.run = false := (effectOf_run_of_isRunOp hi s).symm.trans ht
      rw [effectOf_of_not_run hi hrun]
      exact ih hrun

/-! ## Admitted executions -/

/-- RUN after an operation is what `admitted` carries along. -/
theorem admitted_cons {run : Bool} {i : Instr} {ops : List Instr} {s : State} (hrun : s.run = run)
    (h : admitted run (i :: ops) = true) :
    exec i s = .next (effectOf i s) ∧ admitted (effectOf i s).run ops = true := by
  subst hrun
  cases hi : isRunOp i
  · cases i with
    | reset => exact ⟨exec_reset s, h⟩
    | init =>
      rw [admitted, Bool.and_eq_true, Bool.not_eq_true'] at h
      exact ⟨exec_init_of_not_run h.1, h.2⟩
    | _ => cases hi
  · refine ⟨exec_of_isRunOp hi s, ?_⟩
    rw [effectOf_run_of_isRunOp hi]
    cases i with
    | reset => cases hi
    | init => cases hi
    | _ => exact h

theorem runOps_of_admitted (ops : List Instr) (s : State) (h : admitted s.run ops = true) : ∃ t, runOps ops s = .next t := by
  induction ops generalizing s with
  | nil => exact ⟨s, rfl⟩
  | cons i ops ih =>
    obtain ⟨hexec, hops⟩ := admitted_cons rfl h
    rw [runOps_cons_of_next hexec]
    exact ih _ hops

/-- The states that the finite beginnings of an endless sequence lead to are an infinite execution, and the only one (R280). -/
theorem infiniteExecution_iff {s : State} {ops : Nat → Instr} {states : Nat → State}
    (hstates : ∀ n, runOps (firstOps ops n) s = .next (states n)) (states' : Nat → State) :
    InfiniteExecution s ops states' ↔ states' = states := by
  constructor
  · intro h
    funext n
    exact Host.Outcome.next.inj ((h.runOps_firstOps n).symm.trans (hstates n))
  · rintro rfl
    refine ⟨(Host.Outcome.next.inj (hstates 0)).symm, fun n => ?_⟩
    have hlast : runOps [ops n] (states' n) = .next (states' (n + 1)) := by
      rw [← runOps_append_of_next (hstates n), ← firstOps_succ, hstates]
    obtain ⟨t, hexec, ht⟩ := runOps_cons_next hlast
    exact hexec.trans ht

/-- Settles O10: a finite execution by induction on its operations; the states of an infinite one are where its beginnings lead. -/
theorem admittedExecutionsRunToTheirEnd : Obligations.AdmittedExecutionsRunToTheirEnd := by
  refine ⟨runOps_of_admitted, fun ops s hadmitted => ?_⟩
  choose states hstates using fun n => runOps_of_admitted (firstOps ops n) s (hadmitted n)
  exact ⟨states, hstates, infiniteExecution_iff hstates⟩

/-! ## The stream of a run -/

/-- The state s with another stimulus before it. -/
def withStimulus (s : State) (stim : List Byte) (pos : Nat) : State := { s with stim := stim, pos := pos }

theorem clkAction_withStimulus (s : State) (stim : List Byte) (pos : Nat) :
    clkAction (withStimulus s stim pos) = withStimulus (clkAction s) stim pos := by
  by_cases h : wraps s.per1 s.cnt1
  · rw [clkAction_of_wraps h, clkAction_of_wraps (by exact h)]
    rfl
  · rw [clkAction_of_not_wraps h, clkAction_of_not_wraps (by exact h)]
    rfl

theorem edgeAction_withStimulus (s : State) (stim : List Byte) (pos : Nat) :
    edgeAction (withStimulus s stim pos) = withStimulus (edgeAction s) stim pos := by
  rw [edgeAction_eq_withDecoder s]
  exact edgeAction_withDecoder (withStimulus s stim pos) s

theorem sampleAction_withStimulus (r : Sample) (s : State) (stim : List Byte) (pos : Nat) :
    sampleAction r (withStimulus s stim pos) = withStimulus (sampleAction r s) stim pos := by
  by_cases h : s.conv = true
  · rw [sampleAction_of_conv h, sampleAction_of_conv (by exact h)]
    rfl
  · rw [sampleAction_of_not_conv h, sampleAction_of_not_conv (by exact h)]

theorem loopAction_withStimulus (s : State) (stim : List Byte) (pos : Nat) :
    loopAction (withStimulus s stim pos) = withStimulus (loopAction s) stim pos := by
  have hphase : ∀ p, phaseAction p (withStimulus s stim pos) = withStimulus (phaseAction p s) stim pos := by
    intro p
    cases p <;> rfl
  exact congrArg advancePhase (hphase s.lph)

/-- What holds of an effect holds behind the RUN gate. -/
theorem gate_withStimulus {f : State → State} (s : State) {stim : List Byte} {pos : Nat}
    (hf : f (withStimulus s stim pos) = withStimulus (f s) stim pos) :
    (if (withStimulus s stim pos).run then f (withStimulus s stim pos) else withStimulus s stim pos) =
      withStimulus (if s.run then f s else s) stim pos := by
  rw [apply_ite (withStimulus · stim pos), hf]
  rfl

/-- No operation reads or writes the stimulus (log 2). -/
theorem effectOf_withStimulus (i : Instr) (s : State) (stim : List Byte) (pos : Nat) :
    effectOf i (withStimulus s stim pos) = withStimulus (effectOf i s) stim pos := by
  cases i with
  | idle => rfl
  | reset => rfl
  | init => rfl
  | clk => exact gate_withStimulus s (clkAction_withStimulus s stim pos)
  | tick => exact gate_withStimulus (f := tickAction) s rfl
  | edge => exact gate_withStimulus s (edgeAction_withStimulus s stim pos)
  | adcdone r => exact gate_withStimulus s (sampleAction_withStimulus r s stim pos)
  | lstep => exact gate_withStimulus s (loopAction_withStimulus s stim pos)

theorem exec_withStimulus {i : Instr} {s t : State} (h : exec i s = .next t) (stim : List Byte) (pos : Nat) :
    exec i (withStimulus s stim pos) = .next (withStimulus t stim pos) := by
  obtain ⟨hallowed, rfl⟩ := (exec_next_iff i s t).mp h
  exact (exec_next_iff ..).mpr ⟨hallowed, (effectOf_withStimulus i s stim pos).symm⟩

theorem step_encodeStream_cons {i : Instr} {s t : State} (h : exec i s = .next t) (rest : List Byte) (pos : Nat) :
    step (withStimulus s (encodeBytes i ++ rest) pos) = .next (withStimulus t rest (pos + 1)) :=
  (step_of_decode (decodeEncodeRoundTrip i rest)).trans (exec_withStimulus h rest (pos + 1))

theorem run_succ_of_next {M : Host.Core} {s t : M.State} (h : M.step s = .next t) (k : Nat) : M.run (k + 1) s = M.run k t := by
  rw [Host.Core.run, h]

/-- The run of a stream, with the words counted from any position. -/
theorem core_run_encodeStream (ops : List Instr) (s t : State) (rest : List Byte) (pos : Nat) (h : runOps ops s = .next t) :
    core.run ops.length (withStimulus s (encodeStream ops ++ rest) pos) = .next (withStimulus t rest (pos + ops.length)) := by
  induction ops generalizing s pos with
  | nil => cases h; rfl
  | cons i ops ih =>
    obtain ⟨u, hexec, hops⟩ := runOps_cons_next h
    have hstream : encodeStream (i :: ops) ++ rest = encodeBytes i ++ (encodeStream ops ++ rest) :=
      List.append_assoc (encodeBytes i) (encodeStream ops) rest
    have hstep := step_encodeStream_cons hexec (encodeStream ops ++ rest) pos
    have hcount : pos + (i :: ops).length = pos + 1 + ops.length := by rw [List.length_cons]; omega
    rw [hstream, hcount]
    exact (run_succ_of_next (M := core) hstep ops.length).trans (ih u (pos + 1) hops)

/-- Settles O8: each step takes one word and runs its operation, which neither reads nor writes the stimulus. -/
theorem streamRunsItsOperations : Obligations.StreamRunsItsOperations := fun ops s t rest h =>
  core_run_encodeStream ops s t rest s.pos h

end Sys2Proof.Machine
end

section
/-! LAWS. The invariants of 10_state.md section 9 (R39): each operation keeps them, so every step does; and what they say of a publish. -/

namespace Sys2Proof.Machine

/-! ## Staging a byte -/

/-- The bytes staged up to index k are those before it and the one put there. -/
theorem take_succ_setIfInBounds (v : Vector Byte 8) {k : Nat} (hk : k < 8) (b : Byte) :
    (v.setIfInBounds k b).toList.take (k + 1) = v.toList.take k ++ [b] := by
  have hlen : k < v.toList.length := by rw [Vector.length_toList]; exact hk
  rw [Vector.toList_setIfInBounds, List.take_add_one, List.take_set_of_le (Nat.le_refl k), List.getElem?_set_self hlen]
  rfl

theorem xorBytes_take_succ_setIfInBounds (v : Vector Byte 8) {k : Nat} (hk : k < 8) (b : Byte) :
    xorBytes ((v.setIfInBounds k b).toList.take (k + 1)) = xorBytes (v.toList.take k) ^^^ b := by
  rw [take_succ_setIfInBounds v hk, xorBytes_append, xorBytes_cons, xorBytes_nil]
  exact congrArg _ BitVec.xor_zero

/-- With no byte of the frame staged the checksum is 0. -/
theorem xorBytes_take_of_no_byte (bytes : List Byte) {ecnt : Byte} (h : ecnt.toNat / 16 = 0) :
    0 = xorBytes (bytes.take (ecnt.toNat / 16)) := by
  rw [h]
  rfl

/-- The checksum of the whole staged frame is that of its first seven bytes with the last folded in (R205). -/
theorem xorBytes_frameAfterLastEdge (s : State) :
    xorBytes (frameAfterLastEdge s).toList = xorBytes (s.cmd.toList.take 7) ^^^ byteAfterDataEdge s := by
  have h := xorBytes_take_succ_setIfInBounds s.cmd (k := 7) (by omega) (byteAfterDataEdge s)
  rwa [List.take_of_length_le (by rw [Vector.length_toList])] at h

/-! ## The control law inside the range of a duty -/

/-- R250: a duty at most PERIOD moves by one count or none, and stays at most PERIOD. -/
theorem adjust_bounds {period d : TimerWord} (h : d.toNat ≤ period.toNat) (im il vm vl : Byte) :
    (adjust period d im il vm vl).toNat ≤ d.toNat + 1 ∧ d.toNat ≤ (adjust period d im il vm vl).toNat + 1 ∧
    (adjust period d im il vm vl).toNat ≤ period.toNat := by
  unfold adjust
  split
  · rw [dec0_toNat]; omega
  · split
    · rw [incP_toNat]; omega
    · omega

/-! ## Each operation keeps the invariants -/

theorem inv_reset : Inv State.reset where
  per1_eq := rfl
  per2_eq := rfl
  duty1_le := Nat.le_refl 0
  duty2_le := Nat.le_refl 0
  cnt1_lt := nofun
  cnt2_eq := rfl
  ecnt_le := Nat.zero_le _
  sp_xor := by decide
  conv_eq := rfl
  crc_eq := by decide

namespace Inv

/-- The invariants say nothing of the stimulus. -/
theorem of_stimulus {s : State} (h : Inv s) (stim : List Byte) (pos : Nat) :
    Inv { s with stim := stim, pos := pos } := { h with }

theorem configure {s : State} (h : Inv s) : Inv (configure s) :=
  { h with
    per1_eq := rfl
    per2_eq := rfl
    duty1_le := Nat.zero_le _
    duty2_le := Nat.zero_le _
    cnt1_lt := fun _ => period_bounds.1
    cnt2_eq := rfl
    conv_eq := rfl }

theorem tickAction {s : State} (h : Inv s) : Inv (tickAction s) := { h with }

theorem per1_of_run {s : State} (h : Inv s) (hrun : s.run = true) : s.per1 = Config.period := by
  rw [h.per1_eq, if_pos hrun]

theorem per2_of_run {s : State} (h : Inv s) (hrun : s.run = true) : s.per2 = Config.period := by
  rw [h.per2_eq, if_pos hrun]

theorem countTimers {s : State} (h : Inv s) (hrun : s.run = true) : Inv (countTimers s) where
  __ := h
  cnt1_lt := fun _ => by
    have hlt := h.cnt1_lt hrun
    rw [countTimers_cnt1, countUp_toNat, h.per1_of_run hrun]
    split <;> omega
  cnt2_eq := by
    rw [countTimers_cnt1, countTimers_cnt2, h.per1_of_run hrun, h.per2_of_run hrun, h.cnt2_eq]

theorem clkAction {s : State} (h : Inv s) (hrun : s.run = true) : Inv (clkAction s) := by
  unfold Machine.clkAction
  split
  · exact (h.countTimers hrun).tickAction
  · exact h.countTimers hrun

theorem sampleAction {s : State} (h : Inv s) (hrun : s.run = true) (r : Sample) : Inv (sampleAction r s) := by
  unfold Machine.sampleAction
  split
  · exact { h with conv_eq := hrun.symm }
  · exact h

theorem adjust_duty1_le {s : State} (h : Inv s) (hrun : s.run = true) (im il vm vl : Byte) :
    (adjust Config.period s.duty1 im il vm vl).toNat ≤ if s.run then Config.period.toNat else 0 := by
  have hle := h.duty1_le
  rw [if_pos hrun] at hle ⊢
  exact (adjust_bounds hle ..).2.2

theorem adjust_duty2_le {s : State} (h : Inv s) (hrun : s.run = true) (im il vm vl : Byte) :
    (adjust Config.period s.duty2 im il vm vl).toNat ≤ if s.run then Config.period.toNat else 0 := by
  have hle := h.duty2_le
  rw [if_pos hrun] at hle ⊢
  exact (adjust_bounds hle ..).2.2

/-- A loading phase writes a latch, of which no invariant speaks; an adjusting phase keeps its duty at most PERIOD. -/
theorem phaseAction {s : State} (h : Inv s) (hrun : s.run = true) (p : Phase) : Inv (phaseAction p s) := by
  cases p with
  | adj1 => exact { h with duty1_le := h.adjust_duty1_le hrun .. }
  | adj2 => exact { h with duty2_le := h.adjust_duty2_le hrun .. }
  | _ => exact { h with }

theorem loopAction {s : State} (h : Inv s) (hrun : s.run = true) : Inv (loopAction s) :=
  { h.phaseAction hrun s.lph with }

/-- An edge that ends no byte leaves the count of staged bytes, and with it the checksum's meaning, as it was. -/
theorem crc_eq_nextCount {s : State} (h : Inv s) (hbyte : (s.ecnt.toNat + 1) % 16 ≠ 0) :
    s.crc = xorBytes (s.cmd.toList.take ((BitVec.ofNat 8 (s.ecnt.toNat + 1)).toNat / 16)) := by
  have hle := h.ecnt_le
  have hbytes : (s.ecnt.toNat + 1) / 16 = s.ecnt.toNat / 16 := by omega
  rw [nextCount_toNat hle, hbytes, ← h.crc_eq]

theorem edgeStep {s t : State} (h : Inv s) (hstep : EdgeStep s t) : Inv t := by
  have hle := h.ecnt_le
  cases hstep with
  | resync _ => exact { h with ecnt_le := Nat.le_of_ble_eq_true rfl, crc_eq := xorBytes_take_of_no_byte (ecnt := 1) _ (by decide) }
  | clock _ he =>
    exact { h with ecnt_le := by rw [nextCount_toNat hle]; omega, crc_eq := h.crc_eq_nextCount (by omega) }
  | bit _ _ hbyte =>
    exact { h with ecnt_le := by rw [nextCount_toNat hle]; omega, crc_eq := h.crc_eq_nextCount hbyte }
  | byteEnd _ hbyte hframe =>
    refine { h with ecnt_le := by rw [nextCount_toNat hle]; omega, crc_eq := ?_ }
    have hindex : byteIndex s.ecnt = s.ecnt.toNat / 16 := by rw [byteIndex_eq]; omega
    have hbytes : (s.ecnt.toNat + 1) / 16 = s.ecnt.toNat / 16 + 1 := by omega
    rw [nextCount_toNat hle, hindex, hbytes, xorBytes_take_succ_setIfInBounds s.cmd (by omega), ← h.crc_eq]
  | frameEnd _ he =>
    refine { h with ecnt_le := Nat.zero_le _, crc_eq := xorBytes_take_of_no_byte (ecnt := 0) _ (by decide), sp_xor := ?_ }
    have hcrc : s.crc = xorBytes (s.cmd.toList.take 7) := by rw [h.crc_eq, he]; rfl
    dsimp only
    split
    next hvalid => rw [xorBytes_frameAfterLastEdge, ← hcrc, hvalid]
    next => exact h.sp_xor

theorem effectOf {s : State} (h : Inv s) {i : Instr} : Inv (effectOf i s) := by
  cases i with
  | idle => exact h
  | reset => exact inv_reset.of_stimulus s.stim s.pos
  | init => exact h.configure
  | clk => exact iteInduction h.clkAction fun _ => h
  | tick => exact iteInduction (fun _ => h.tickAction) fun _ => h
  | edge => exact iteInduction (fun _ => h.edgeStep (edgeStep_edgeAction s)) fun _ => h
  | adcdone r => exact iteInduction (h.sampleAction · r) fun _ => h
  | lstep => exact iteInduction h.loopAction fun _ => h

theorem exec {s t : State} (h : Inv s) {i : Instr} (hexec : exec i s = .next t) : Inv t := by
  obtain ⟨-, rfl⟩ := (exec_next_iff i s t).mp hexec
  exact h.effectOf

end Inv

/-- Settles O53: a step takes a word, of which no invariant speaks, and runs one operation, each of which keeps every invariant. -/
theorem everyStepKeepsTheInvariants : Obligations.EveryStepKeepsTheInvariants := by
  intro s t h hstep
  obtain ⟨i, rest, -, hexec⟩ := step_next hstep
  exact (h.of_stimulus rest (s.pos + 1)).exec hexec

/-- Settles O54: the setpoints of reset xor to 0, and every other invariant is one of zeros. -/
theorem resetStateHasTheInvariants : Obligations.ResetStateHasTheInvariants := inv_reset

/-! ## Publishing -/

/-- The last edge of a frame publishes if the checksum is 0 with the last byte folded in (R205). -/
theorem publishes_of_frameEnd {s : State} (hp : s.pulse ≠ 255) (he : s.ecnt = 127) :
    publishes s = (s.run && decide (s.crc ^^^ byteAfterDataEdge s = 0)) := by
  have hdata : dataEdge Config.dataParity s.ecnt := by rw [he]; decide
  have hframe : frameDone s.ecnt := (ecnt_eq_127_iff _).mp he
  rw [publishes, beforeFrameStep, edgeResync_of_ne hp, edgeShift_of_data hdata,
    edgeByte_of_done (by exact byteDone_of_frameDone hframe)]
  exact congrArg (· && _) ((congrArg (s.run && ·) (decide_eq_true hframe)).trans (Bool.and_true _))

/-- Of the operations but RESET only an edge writes SP. -/
theorem effectOf_sp {i : Instr} (hreset : i ≠ .reset) (hedge : i ≠ .edge) (s : State) : (effectOf i s).sp = s.sp := by
  cases i with
  | reset => exact absurd rfl hreset
  | edge => exact absurd rfl hedge
  | idle => rfl
  | init => rfl
  | clk => rw [effectOf, apply_ite State.sp, clkAction_only, ite_self]
  | tick => rw [effectOf, apply_ite State.sp, tickAction_sp, ite_self]
  | adcdone r => rw [effectOf, apply_ite State.sp, sampleAction_only, ite_self]
  | lstep => rw [effectOf, apply_ite State.sp, loopAction_only, ite_self]

/-- Only the edge that ends a valid frame changes SP (R205, R206). -/
theorem publishes_of_sp_ne {s t : State} (hrun : s.run = true) (hstep : EdgeStep s t) (hsp : t.sp ≠ s.sp) :
    publishes s = true ∧ t.sp = t.cmd := by
  cases hstep with
  | frameEnd hp he =>
    by_cases hvalid : s.crc ^^^ byteAfterDataEdge s = 0
    · exact ⟨by rw [publishes_of_frameEnd hp he, hrun, decide_eq_true hvalid, Bool.and_self], if_pos hvalid⟩
    · exact absurd (if_neg hvalid) hsp
  | _ => exact absurd rfl hsp

/-- Settles O37: of the five cases of an edge only the valid frame end writes SP; that its bytes xor to 0 is the invariant after it. -/
theorem setpointsChangeOnlyByPublish : Obligations.SetpointsChangeOnlyByPublish := by
  intro i s t hinv hreset hexec hsp
  have hxor := (hinv.exec hexec).sp_xor
  obtain ⟨-, rfl⟩ := (exec_next_iff i s t).mp hexec
  by_cases hedge : i = .edge
  · subst hedge
    cases hrun : s.run
    · rw [effectOf_of_not_run rfl hrun] at hsp
      exact absurd rfl hsp
    · rw [effectOf, if_pos hrun] at hsp hxor ⊢
      obtain ⟨hpublishes, hcmd⟩ := publishes_of_sp_ne hrun (edgeStep_edgeAction s) hsp
      exact ⟨rfl, hpublishes, hcmd, hxor⟩
  · exact absurd (effectOf_sp hreset hedge s) hsp

end Sys2Proof.Machine
end

section
/-! LAWS. The timers (41_pwm_generator.md) and the interval counter (43_reference_counter.md): one clock, a whole PWM cycle, the clocks in which
an output is active, and the ticks since an edge. -/

namespace Sys2Proof.Machine

/-! ## One clock, one tick -/

theorem exec_clk_of_run {s : State} (h : s.run = true) : exec .clk s = .next (clkAction s) := whenRunning_of_run h clkAction

theorem exec_tick_of_run {s : State} (h : s.run = true) : exec .tick s = .next (tickAction s) := whenRunning_of_run h tickAction

theorem clkAction_run (s : State) : (clkAction s).run = s.run := by rw [clkAction_only]

theorem clkAction_cnt1 (s : State) : (clkAction s).cnt1 = countUp s.per1 s.cnt1 := by rw [clkAction_only]

theorem clkAction_cnt2 (s : State) : (clkAction s).cnt2 = countUp s.per2 s.cnt2 := by rw [clkAction_only]

theorem tickAction_pulse_toNat (s : State) : (tickAction s).pulse.toNat = min 255 (s.pulse.toNat + 1) := satInc_toNat s.pulse

/-- A clock ticks when it overflows timer 1 (R154). -/
theorem clkAction_pulse_toNat (s : State) :
    (clkAction s).pulse.toNat = if wraps s.per1 s.cnt1 then min 255 (s.pulse.toNat + 1) else s.pulse.toNat := by
  by_cases h : wraps s.per1 s.cnt1
  · rw [clkAction_of_wraps h, if_pos h]
    exact tickAction_pulse_toNat (countTimers s)
  · rw [clkAction_of_not_wraps h, if_neg h, countTimers_pulse]

/-- Settles O19: each component of the clock's effect by its own lemma; the frame is R38's CLK column. -/
theorem clkCountsBothTimers : Obligations.ClkCountsBothTimers := by
  intro s hrun
  have hframe := clkAction_only s
  rw [← clkAction_cnt1, ← clkAction_cnt2] at hframe
  refine ⟨clkAction s, exec_clk_of_run hrun, ?_, ?_, clkAction_pulse_toNat s, hframe⟩
  · rw [clkAction_cnt1, countUp_toNat]
  · rw [clkAction_cnt2, countUp_toNat]

theorem outputOf_iff (run : Bool) (cnt duty : TimerWord) :
    outputOf run cnt duty = true ↔ run = true ∧ cnt.toNat < duty.toNat := by
  rw [outputOf, Bool.and_eq_true, decide_eq_true_iff]

/-- Settles O20: both outputs are the same function of their own registers. -/
theorem outputActiveWhileCounterBelowDuty : Obligations.OutputActiveWhileCounterBelowDuty := fun s =>
  ⟨outputOf_iff s.run s.cnt1 s.duty1, outputOf_iff s.run s.cnt2 s.duty2⟩

/-- Settles O23: the tick action alone, behind the RUN gate, and as the last part of a clock. -/
theorem tickSaturatesThePulseCounter : Obligations.TickSaturatesThePulseCounter := fun s =>
  ⟨exec_of_not_run rfl,
    fun hrun => ⟨tickAction s, exec_tick_of_run hrun, tickAction_pulse_toNat s, rfl⟩,
    fun hrun hwraps => ⟨clkAction s, exec_clk_of_run hrun, (clkAction_pulse_toNat s).trans (if_pos hwraps)⟩⟩

/-! ## A whole PWM cycle -/

/-- One operation repeated, while it keeps the block running, is its effect iterated. -/
theorem runOps_replicate {i : Instr} {f : State → State}
    (hexec : ∀ s : State, s.run = true → exec i s = .next (f s)) (hrun : ∀ s : State, (f s).run = s.run) (n : Nat)
    {s : State} (h : s.run = true) : runOps (List.replicate n i) s = .next (f^[n] s) := by
  induction n generalizing s with
  | zero => rfl
  | succ n ih =>
    rw [List.replicate_succ, runOps_cons_of_next (hexec s h), ih ((hrun s).trans h), Function.iterate_succ_apply]

theorem runOps_replicate_clk (n : Nat) {s : State} (h : s.run = true) :
    runOps (List.replicate n .clk) s = .next (clkAction^[n] s) :=
  runOps_replicate (fun _ => exec_clk_of_run) clkAction_run n h

/-- The state s with both counters at n. -/
def atCount (s : State) (n : Nat) : State :=
  { s with cnt1 := BitVec.ofNat Config.dutyBits n, cnt2 := BitVec.ofNat Config.dutyBits n }

theorem ofNat_toNat_of_lt_period {n : Nat} (h : n < Config.period.toNat) : (BitVec.ofNat Config.dutyBits n).toNat = n := by
  have hp := period_bounds
  rw [BitVec.toNat_ofNat, two_pow_dutyBits, Nat.mod_eq_of_lt (by omega)]

section
variable {s : State} (h1 : s.per1 = Config.period) (h2 : s.per2 = Config.period)
include h1

theorem wraps_atCount_iff {n : Nat} (h : n < Config.period.toNat) :
    wraps (atCount s n).per1 (atCount s n).cnt1 ↔ n + 1 = Config.period.toNat := by
  have hper : (atCount s n).per1 = Config.period := h1
  have hcnt : (atCount s n).cnt1.toNat = n := ofNat_toNat_of_lt_period h
  rw [wraps, hper, hcnt]
  omega

include h2

/-- Both counters count against the same period. -/
theorem countTimers_atCount (n : Nat) :
    countTimers (atCount s n) = atCount s (countUp Config.period (BitVec.ofNat Config.dutyBits n)).toNat := by
  rw [countTimers, atCount, atCount, BitVec.ofNat_toNat, BitVec.setWidth_eq]
  simp only [h1, h2]

theorem clkAction_atCount {n : Nat} (h : n + 1 < Config.period.toNat) : clkAction (atCount s n) = atCount s (n + 1) := by
  have hn := ofNat_toNat_of_lt_period (n := n) (by omega)
  have hwraps : ¬ wraps (atCount s n).per1 (atCount s n).cnt1 := by rw [wraps_atCount_iff h1 (by omega)]; omega
  rw [clkAction_of_not_wraps hwraps, countTimers_atCount h1 h2, countUp_toNat, hn, if_neg (by omega)]

theorem clkAction_atCount_last {n : Nat} (h : n + 1 = Config.period.toNat) :
    clkAction (atCount s n) = atCount (tickAction s) 0 := by
  have hn := ofNat_toNat_of_lt_period (n := n) (by omega)
  have hwraps : wraps (atCount s n).per1 (atCount s n).cnt1 := (wraps_atCount_iff h1 (by omega)).mpr h
  rw [clkAction_of_wraps hwraps, countTimers_atCount h1 h2, countUp_toNat, hn, if_pos (by omega)]
  rfl

/-- Before the overflow the clocks only count. -/
theorem clkAction_iterate_atCount {c n : Nat} (h : c + n < Config.period.toNat) :
    clkAction^[n] (atCount s c) = atCount s (c + n) := by
  induction n with
  | zero => rfl
  | succ n ih =>
    rw [Function.iterate_succ_apply', ih (by omega), clkAction_atCount h1 h2 (by omega), Nat.add_assoc]

/-- PERIOD clocks: up to PERIOD - 1, one overflow, and on to the count they began with. -/
theorem clkAction_iterate_period {c : Nat} (h : c < Config.period.toNat) :
    clkAction^[Config.period.toNat] (atCount s c) = atCount (tickAction s) c := by
  obtain ⟨n, hn⟩ : ∃ n, Config.period.toNat = c + (n + 1) := ⟨Config.period.toNat - c - 1, by omega⟩
  have hcycle : clkAction^[c + (n + 1)] (atCount s c) = atCount (tickAction s) c := by
    rw [Function.iterate_add_apply, Function.iterate_succ_apply', clkAction_iterate_atCount h1 h2 (by omega),
      clkAction_atCount_last h1 h2 (by omega), clkAction_iterate_atCount (s := tickAction s) h1 h2 (by omega), Nat.zero_add]
  rwa [← hn] at hcycle

end

theorem atCount_cnt1 {s : State} (h : s.cnt2 = s.cnt1) : atCount s s.cnt1.toNat = s := by
  rw [atCount, BitVec.ofNat_toNat, BitVec.setWidth_eq]
  exact congrArg (fun c => { s with cnt2 := c }) h.symm

/-- Settles O21: under the invariants both counters start at one count below PERIOD, from which PERIOD clocks overflow once. -/
theorem pwmCycleReturnsAndTicksOnce : Obligations.PwmCycleReturnsAndTicksOnce := by
  intro s hinv hrun
  have hcycle : clkAction^[Config.period.toNat] s = tickAction s := by
    conv_lhs => rw [← atCount_cnt1 hinv.cnt2_eq]
    rw [clkAction_iterate_period (hinv.per1_of_run hrun) (hinv.per2_of_run hrun) (hinv.cnt1_lt hrun)]
    exact atCount_cnt1 (s := tickAction s) hinv.cnt2_eq
  exact ⟨tickAction s, (runOps_replicate_clk _ hrun).trans (congrArg _ hcycle), tickAction_pulse_toNat s, rfl⟩

/-! ## The active clocks of a cycle -/

/-- Of n counts of a timer from c, how many are below the duty. -/
def activeCounts (per duty : TimerWord) : Nat → TimerWord → Nat
  | 0, _ => 0
  | n + 1, c => (if c.toNat < duty.toNat then 1 else 0) + activeCounts per duty n (countUp per c)

theorem out1_of_run {s : State} (h : s.run = true) : out1 s = decide (s.cnt1.toNat < s.duty1.toNat) := by
  rw [out1, outputOf, h, Bool.true_and]

theorem out2_of_run {s : State} (h : s.run = true) : out2 s = decide (s.cnt2.toNat < s.duty2.toNat) := by
  rw [out2, outputOf, h, Bool.true_and]

theorem activeClocks1_eq (n : Nat) {s : State} (h : s.run = true) :
    activeClocks1 n s = activeCounts s.per1 s.duty1 n s.cnt1 := by
  induction n generalizing s with
  | zero => rfl
  | succ n ih =>
    rw [activeClocks1, out1_of_run h, ih ((clkAction_run s).trans h), clkAction_only, activeCounts]
    simp only [decide_eq_true_eq]

theorem activeClocks2_eq (n : Nat) {s : State} (h : s.run = true) :
    activeClocks2 n s = activeCounts s.per2 s.duty2 n s.cnt2 := by
  induction n generalizing s with
  | zero => rfl
  | succ n ih =>
    rw [activeClocks2, out2_of_run h, ih ((clkAction_run s).trans h), clkAction_only, activeCounts]
    simp only [decide_eq_true_eq]

section
variable (per duty : TimerWord)

theorem countUp_toNat_of_lt {c : TimerWord} (h : c.toNat + 1 < per.toNat) : (countUp per c).toNat = c.toNat + 1 := by
  rw [countUp_toNat, if_neg (by omega)]

theorem countUp_of_last {c : TimerWord} (h : c.toNat + 1 = per.toNat) : countUp per c = 0 := if_pos (by omega)

/-- Counts that do not overflow: those below the duty. -/
theorem activeCounts_before_wrap {n : Nat} {c : TimerWord} (h : c.toNat + n ≤ per.toNat) :
    activeCounts per duty n c + min c.toNat duty.toNat = min (c.toNat + n) duty.toNat := by
  induction n generalizing c with
  | zero => rw [activeCounts, Nat.zero_add, Nat.add_zero]
  | succ n ih =>
    rw [activeCounts]
    cases n with
    | zero => rw [activeCounts]; split <;> omega
    | succ n =>
      have hnext := countUp_toNat_of_lt per (c := c) (by omega)
      have hrest := ih (c := countUp per c) (by omega)
      rw [hnext] at hrest
      split <;> omega

/-- Counts that reach the overflow go on from 0. -/
theorem activeCounts_through_wrap {k m : Nat} {c : TimerWord} (h : c.toNat + (k + 1) = per.toNat) :
    activeCounts per duty (k + 1 + m) c + min c.toNat duty.toNat = min per.toNat duty.toNat + activeCounts per duty m 0 := by
  induction k generalizing c with
  | zero =>
    rw [Nat.zero_add, Nat.add_comm 1 m, activeCounts, countUp_of_last per (by omega)]
    split <;> omega
  | succ k ih =>
    have hnext := countUp_toNat_of_lt per (c := c) (by omega)
    have hrest := ih (c := countUp per c) (by omega)
    rw [hnext] at hrest
    rw [Nat.add_right_comm (k + 1) 1 m, activeCounts]
    split <;> omega

/-- A whole cycle of counts, from any of them: each count comes once. -/
theorem activeCounts_period {c : TimerWord} (h : c.toNat < per.toNat) :
    activeCounts per duty per.toNat c = min duty.toNat per.toNat := by
  obtain ⟨k, hk⟩ : ∃ k, per.toNat = k + 1 + c.toNat := ⟨per.toNat - c.toNat - 1, by omega⟩
  have hwrap := activeCounts_through_wrap per duty (k := k) (m := c.toNat) (c := c) (by omega)
  have hzero : (0 : TimerWord).toNat = 0 := rfl
  have hrest := activeCounts_before_wrap per duty (n := c.toNat) (c := 0) (by omega)
  rw [← hk] at hwrap
  omega

end

/-- Settles O22: each channel's count is `activeCounts` of its own registers, over a whole cycle. -/
theorem activeClocksPerCycleEqualDuty : Obligations.ActiveClocksPerCycleEqualDuty := by
  intro s hrun h1 h2 hc1 hc2
  rw [activeClocks1_eq _ hrun, activeClocks2_eq _ hrun, h1, h2]
  exact ⟨activeCounts_period _ _ hc1, activeCounts_period _ _ hc2⟩

/-! ## The ticks since an edge -/

/-- Every operation of a running block but an edge moves PULSE by its tick actions (R154, R185). -/
theorem effectOf_pulse_toNat {i : Instr} (hi : isRunOp i = true) (hedge : i ≠ .edge) {s : State} (hrun : s.run = true) :
    (effectOf i s).pulse.toNat = min 255 (s.pulse.toNat + tickActionsOf i s) := by
  have hlt := s.pulse.isLt
  cases i with
  | reset => cases hi
  | init => cases hi
  | edge => exact absurd rfl hedge
  | idle => rw [effectOf, tickActionsOf]; omega
  | tick => rw [effectOf, if_pos hrun, tickActionsOf, tickAction_pulse_toNat]
  | clk =>
    rw [effectOf, if_pos hrun, tickActionsOf, clkAction_pulse_toNat]
    split <;> omega
  | adcdone r => rw [effectOf, if_pos hrun, tickActionsOf, sampleAction_only]; dsimp only; omega
  | lstep => rw [effectOf, if_pos hrun, tickActionsOf, loopAction_only]; dsimp only; omega

theorem tickActions_cons {i : Instr} (hi : isRunOp i = true) (ops : List Instr) (s : State) :
    tickActions (i :: ops) s = tickActionsOf i s + tickActions ops (effectOf i s) := by
  rw [tickActions, exec_of_isRunOp hi]

theorem runOps_pulse_toNat (ops : List Instr) (hops : ∀ i ∈ ops, isRunOp i = true ∧ i ≠ .edge) {s : State}
    (hrun : s.run = true) :
    ∃ t, runOps ops s = .next t ∧ t.pulse.toNat = min 255 (s.pulse.toNat + tickActions ops s) := by
  induction ops generalizing s with
  | nil => exact ⟨s, rfl, by rw [tickActions]; have := s.pulse.isLt; omega⟩
  | cons i ops ih =>
    obtain ⟨⟨hi, hedge⟩, hrest⟩ := List.forall_mem_cons.mp hops
    obtain ⟨t, hrunOps, ht⟩ := ih hrest ((effectOf_run_of_isRunOp hi s).trans hrun)
    refine ⟨t, (runOps_cons_of_next (exec_of_isRunOp hi s) ops).trans hrunOps, ?_⟩
    rw [ht, effectOf_pulse_toNat hi hedge hrun, tickActions_cons hi]
    omega

/-- Settles O24: the edge leaves PULSE = 0, and each operation after it adds its tick actions, clamped. -/
theorem pulseCountsTickActionsSinceTheEdge : Obligations.PulseCountsTickActionsSinceTheEdge := by
  intro s ops hrun hops
  have hedge : (edgeAction s).run = true := by rw [edgeAction_only s]; exact hrun
  obtain ⟨t, hrunOps, ht⟩ := runOps_pulse_toNat ops hops hedge
  refine ⟨edgeAction s, t, exec_edge_of_run hrun, hrunOps, ?_⟩
  rw [ht, edgeAction_pulse]
  exact congrArg _ (Nat.zero_add _)

end Sys2Proof.Machine
end

section
/-! LAWS. The local data space (20_memory.md): the byte at each address, what a write changes, and the list of cells. -/

namespace Sys2Proof.Machine

/-! ## The map, address by address -/

theorem toList_four {α : Type} (v : Vector α 4) : v.toList = [v[0], v[1], v[2], v[3]] := by
  refine List.ext_getElem v.length_toList fun i hi _ => ?_
  have hlt : i < 4 := v.length_toList ▸ hi
  interval_cases i <;> rfl

theorem toList_eight {α : Type} (v : Vector α 8) : v.toList = [v[0], v[1], v[2], v[3], v[4], v[5], v[6], v[7]] := by
  refine List.ext_getElem v.length_toList fun i hi _ => ?_
  have hlt : i < 8 := v.length_toList ▸ hi
  interval_cases i <;> rfl

/-- R61's table, every one of the 48 bytes written out. -/
theorem image_eq (s : State) :
    image s =
      [ctrlByte s, lphByte s,
       hiByte s.per1, loByte s.per1, hiByte s.per2, loByte s.per2,
       hiByte s.cnt1, loByte s.cnt1, hiByte s.cnt2, loByte s.cnt2,
       hiByte s.duty1, loByte s.duty1, hiByte s.duty2, loByte s.duty2,
       s.pulse, s.ecnt, s.byte, s.crc, sctlByte s, 0,
       s.smp[0], s.smp[1], s.smp[2], s.smp[3],
       s.sp[0], s.sp[1], s.sp[2], s.sp[3], s.sp[4], s.sp[5], s.sp[6], s.sp[7],
       s.cmd[0], s.cmd[1], s.cmd[2], s.cmd[3], s.cmd[4], s.cmd[5], s.cmd[6], s.cmd[7],
       s.aIm, s.aIl, s.aVm, s.aVl, 0, 0, 0, 0] := by
  rw [image, toList_four, toList_eight, toList_eight]
  rfl


/-! ## Reading a byte -/

theorem byteAt_eq_getElem? (s : State) (a : Nat) : byteAt s a = (image s)[a]?.getD 0 := List.getD_eq_getElem?_getD

theorem byteAt_smp (s : State) (i : Fin 4) : byteAt s (smpAddr i) = s.smp[i] := by
  rw [byteAt, image_eq]
  fin_cases i <;> rfl

theorem byteAt_sp (s : State) (i : Fin 8) : byteAt s (spAddr i) = s.sp[i] := by
  rw [byteAt, image_eq]
  fin_cases i <;> rfl

theorem byteAt_cmd (s : State) (i : Fin 8) : byteAt s (cmdAddr i) = s.cmd[i] := by
  rw [byteAt, image_eq]
  fin_cases i <;> rfl

theorem byteAt_aIm (s : State) : byteAt s aImAddr = s.aIm := by rw [byteAt, image_eq]; rfl
theorem byteAt_aIl (s : State) : byteAt s aIlAddr = s.aIl := by rw [byteAt, image_eq]; rfl
theorem byteAt_aVm (s : State) : byteAt s aVmAddr = s.aVm := by rw [byteAt, image_eq]; rfl
theorem byteAt_aVl (s : State) : byteAt s aVlAddr = s.aVl := by rw [byteAt, image_eq]; rfl

/-- The six registers of 16 bits are read as they stand (R62). -/
theorem memRead2_registers (s : State) :
    memRead2 s 0x02 = .ok s.per1 ∧ memRead2 s 0x04 = .ok s.per2 ∧ memRead2 s 0x06 = .ok s.cnt1 ∧
    memRead2 s 0x08 = .ok s.cnt2 ∧ memRead2 s 0x0A = .ok s.duty1 ∧ memRead2 s 0x0C = .ok s.duty2 :=
  ⟨congrArg Except.ok (pair_hiByte_loByte s.per1), congrArg Except.ok (pair_hiByte_loByte s.per2),
    congrArg Except.ok (pair_hiByte_loByte s.cnt1), congrArg Except.ok (pair_hiByte_loByte s.cnt2),
    congrArg Except.ok (pair_hiByte_loByte s.duty1), congrArg Except.ok (pair_hiByte_loByte s.duty2)⟩

/-! ## Writing 16 bits -/

/-- The high half, then the low half, written over whatever the register held. -/
theorem ok_of_halves_written (w old : Word) (f : Word → State) :
    (Except.ok (f (pair (hiByte (pair (hiByte w) (loByte old))) (loByte w))) : Except Refusal State) = .ok (f w) := by
  rw [hiByte_pair, pair_hiByte_loByte]

theorem memWrite2_registers (s : State) (w : Word) :
    memWrite2 s 0x02 w = .ok { s with per1 := w } ∧ memWrite2 s 0x04 w = .ok { s with per2 := w } ∧
    memWrite2 s 0x06 w = .ok { s with cnt1 := w } ∧ memWrite2 s 0x08 w = .ok { s with cnt2 := w } ∧
    memWrite2 s 0x0A w = .ok { s with duty1 := w } ∧ memWrite2 s 0x0C w = .ok { s with duty2 := w } :=
  ⟨ok_of_halves_written w s.per1 fun r => { s with per1 := r },
    ok_of_halves_written w s.per2 fun r => { s with per2 := r },
    ok_of_halves_written w s.cnt1 fun r => { s with cnt1 := r },
    ok_of_halves_written w s.cnt2 fun r => { s with cnt2 := r },
    ok_of_halves_written w s.duty1 fun r => { s with duty1 := r },
    ok_of_halves_written w s.duty2 fun r => { s with duty2 := r }⟩

/-- Settles O58: the two halves of each register stand at neighbouring addresses, and a two-byte write replaces both. -/
theorem registerPairsAreBigEndian : Obligations.RegisterPairsAreBigEndian := fun s w =>
  ⟨memRead2_registers s, memWrite2_registers s w⟩

/-- Settles O59: the range check comes first, then the alignment check. -/
theorem memoryPrimitiveRefusals : Obligations.MemoryPrimitiveRefusals := by
  intro s a v w
  refine ⟨fun hout => ?_, fun hin hodd => ?_, rfl⟩
  · have hrange : ¬ a < dataSpaceSize := Nat.not_lt.mpr hout
    exact ⟨if_neg hrange, if_neg hrange, if_neg hrange, if_neg hrange⟩
  · have hrange : a < dataSpaceSize := hin
    exact ⟨(if_pos hrange).trans (if_pos hodd), (if_pos hrange).trans (if_pos hodd)⟩

/-! ## Writing one byte -/

/-- The bits a register byte has after a write are the implemented ones of the byte written (R61). -/
theorem implementedBits_of_whole {a : Nat} (h : implementedBits a = 0xFF) (v : Byte) : v &&& implementedBits a = v := by
  rw [h]
  exact BitVec.and_allOnes

/-- A reserved location keeps 0 (R66). -/
theorem implementedBits_of_reserved {a : Nat} (h : implementedBits a = 0) (v : Byte) : v &&& implementedBits a = 0 := by
  rw [h]
  exact BitVec.and_zero

/-- CTRL keeps bit 0. -/
theorem ctrlBits (v : Byte) : (0 : BitVec 7) ++ BitVec.ofBool (v.getLsbD 0) = v &&& implementedBits 0x00 := by
  revert v
  decide

/-- SCTL keeps CONV and CH. -/
theorem sctlBits (v : Byte) :
    (BitVec.ofBool (v.getLsbD 7) ++ (0 : BitVec 5)) ++ BitVec.ofNat 2 (v.toNat % 4) = v &&& implementedBits 0x12 := by
  revert v
  decide

/-- LPH keeps the phase of the low four bits, if they number one. -/
theorem lphBits (v : Byte) (h : v.toNat % 16 ≤ 10) :
    ∃ p, phaseOfNumber (v.extractLsb' 0 4).toNat = some p ∧
      (0 : BitVec 4) ++ BitVec.ofNat 4 (phaseNumber p) = v &&& implementedBits 0x01 := by
  revert v
  decide

/-- A write of one byte puts its implemented bits at its address and changes no other byte. -/
def WritesByte (s t : State) (a : Nat) (v : Byte) : Prop := image t = (image s).set a (v &&& implementedBits a)

/-- The halves of the registers of 16 bits, and the byte registers that are implemented whole. -/
theorem storeRegister_writesByte_whole (s : State) (v : Byte) {a : Nat} (hlo : 0x02 ≤ a) (hhi : a < 0x12) :
    ∃ t, storeRegister s a v = .ok t ∧ WritesByte s t a v := by
  interval_cases a <;>
  · refine ⟨_, rfl, ?_⟩
    rw [WritesByte, implementedBits_of_whole rfl, image_eq, image_eq]
    simp only [hiByte_pair, loByte_pair]
    rfl

/-- CTRL, LPH, SCTL and the reserved byte beside SCTL. -/
theorem storeRegister_writesByte_partial (s : State) (v : Byte) {a : Nat} (h : a ∈ [0x00, 0x01, 0x12, 0x13])
    (hphase : a = 0x01 → v.toNat % 16 ≤ 10) :
    ∃ t, storeRegister s a v = .ok t ∧ WritesByte s t a v := by
  simp only [List.mem_cons, List.not_mem_nil, or_false] at h
  obtain rfl | rfl | rfl | rfl := h
  · refine ⟨_, rfl, ?_⟩
    rw [WritesByte, ← ctrlBits]
    rfl
  · obtain ⟨p, hp, hbits⟩ := lphBits v (hphase rfl)
    refine ⟨{ s with lph := p }, by rw [storeRegister, hp], ?_⟩
    rw [WritesByte, ← hbits]
    rfl
  · refine ⟨_, rfl, ?_⟩
    rw [WritesByte, ← sctlBits]
    rfl
  · refine ⟨s, rfl, ?_⟩
    rw [WritesByte, implementedBits_of_reserved rfl]
    rfl

theorem image_set_smp (s : State) (k : Fin 4) (v : Byte) :
    image { s with smp := s.smp.setIfInBounds k v } = (image s).set (smpAddr k) v := by
  rw [image_eq, image_eq]
  fin_cases k <;> simp [smpAddr, ctrlByte, lphByte, sctlByte]

theorem image_set_sp (s : State) (k : Fin 8) (v : Byte) :
    image { s with sp := s.sp.setIfInBounds k v } = (image s).set (spAddr k) v := by
  rw [image_eq, image_eq]
  fin_cases k <;> simp [spAddr, ctrlByte, lphByte, sctlByte]

theorem image_set_cmd (s : State) (k : Fin 8) (v : Byte) :
    image { s with cmd := s.cmd.setIfInBounds k v } = (image s).set (cmdAddr k) v := by
  rw [image_eq, image_eq]
  fin_cases k <;> simp [cmdAddr, ctrlByte, lphByte, sctlByte]

theorem implementedBits_array {a : Nat} (hlo : 0x14 ≤ a) (hhi : a < 0x2C) : implementedBits a = 0xFF := by
  rw [implementedBits, if_neg (by omega), if_neg (by omega), if_neg (by omega), if_neg (by omega), if_pos hhi]

theorem implementedBits_end {a : Nat} (h : 0x2C ≤ a) : implementedBits a = 0 := by
  rw [implementedBits, if_neg (by omega), if_neg (by omega), if_neg (by omega), if_neg (by omega), if_neg (by omega)]

/-- From 0x28 on: four latches, and the reserved end of the space. -/
theorem storeArray_writesByte_latches (s : State) (v : Byte) {a : Nat} (hlo : 0x28 ≤ a) (hhi : a < 48) :
    WritesByte s (storeArray s a v) a v := by
  by_cases hlatch : a < 0x2C
  · rw [WritesByte, implementedBits_of_whole (implementedBits_array (by omega) hlatch), image_eq, image_eq]
    interval_cases a <;> rfl
  · have hend : 0x2C ≤ a := Nat.not_lt.mp hlatch
    have hsame : storeArray s a v = s := by
      rw [storeArray, if_neg (by omega), if_neg (by omega), if_neg (by omega), if_neg (by omega), if_neg (by omega),
        if_neg (by omega), if_neg (by omega)]
    rw [WritesByte, hsame, implementedBits_of_reserved (implementedBits_end hend), image_eq]
    interval_cases a <;> rfl

theorem storeArray_writesByte (s : State) (v : Byte) {a : Nat} (hlo : 0x14 ≤ a) (hhi : a < 48) :
    WritesByte s (storeArray s a v) a v := by
  by_cases hlatches : 0x28 ≤ a
  · exact storeArray_writesByte_latches s v hlatches hhi
  have hwhole := implementedBits_of_whole (implementedBits_array hlo (by omega)) v
  rw [WritesByte, hwhole, storeArray]
  split
  next hsmp =>
    have haddr : smpAddr (a - 0x14) = a := Nat.add_sub_of_le hlo
    conv_rhs => rw [← haddr]
    exact image_set_smp s ⟨a - 0x14, by omega⟩ v
  next hsmp =>
    split
    next hsp =>
      have haddr : spAddr (a - 0x18) = a := Nat.add_sub_of_le (by omega)
      conv_rhs => rw [← haddr]
      exact image_set_sp s ⟨a - 0x18, by omega⟩ v
    next hsp =>
      rw [if_pos (by omega)]
      have haddr : cmdAddr (a - 0x20) = a := Nat.add_sub_of_le (by omega)
      conv_rhs => rw [← haddr]
      exact image_set_cmd s ⟨a - 0x20, by omega⟩ v

/-- A one-byte write inside the space writes its byte, but for a phase LPH cannot hold. -/
theorem memWrite1_writesByte (s : State) (v : Byte) {a : Nat} (h : a < 48) (hphase : a = 0x01 → v.toNat % 16 ≤ 10) :
    ∃ t, memWrite1 s a v = .ok t ∧ WritesByte s t a v := by
  rw [memWrite1, if_pos (show a < dataSpaceSize from h)]
  by_cases harray : 0x14 ≤ a
  · exact ⟨storeArray s a v, if_neg (by omega), storeArray_writesByte s v harray h⟩
  rw [if_pos (by omega)]
  by_cases hwhole : 0x02 ≤ a ∧ a < 0x12
  · exact storeRegister_writesByte_whole s v hwhole.1 hwhole.2
  · refine storeRegister_writesByte_partial s v ?_ hphase
    simp only [List.mem_cons, List.not_mem_nil, or_false]
    omega

theorem WritesByte.byteAt_self {s t : State} {a : Nat} {v : Byte} (h : WritesByte s t a v) (ha : a < 48) :
    byteAt t a = v &&& implementedBits a := by
  have hlen : a < (image s).length := by rw [image_length]; exact ha
  rw [byteAt_eq_getElem?, h, List.getElem?_set_self hlen, Option.getD_some]

theorem WritesByte.byteAt_of_ne {s t : State} {a b : Nat} {v : Byte} (h : WritesByte s t a v) (hb : b ≠ a) :
    byteAt t b = byteAt s b := by
  rw [byteAt_eq_getElem?, byteAt_eq_getElem?, h, List.getElem?_set_ne hb.symm]

/-- Settles O57: the write is one `set` in the list of the 48 bytes. -/
theorem byteWriteReadsBack : Obligations.ByteWriteReadsBack := by
  intro s a v ha hphase
  obtain ⟨t, hwrite, hbyte⟩ := memWrite1_writesByte s v ha hphase
  exact ⟨t, hwrite, hbyte.byteAt_self ha, fun _ => hbyte.byteAt_of_ne⟩

/-! ## The list of cells -/

theorem mem_cells_iff (s : State) (c : Host.Cell) : c ∈ cells s ↔ c.1 < 48 ∧ cellAt s c.1 = some c := by
  rw [cells, List.mem_filterMap]
  constructor
  · rintro ⟨a, ha, hcell⟩
    have haddr := cellAt_fst hcell
    subst haddr
    exact ⟨List.mem_range.mp ha, hcell⟩
  · exact fun h => ⟨c.1, List.mem_range.mpr h.1, h.2⟩

theorem cellAt_of_ne {s : State} {a : Nat} (h : byteAt s a ≠ unlistedByte) : cellAt s a = some (a, byteAt s a) := if_neg h

theorem cellAt_snd {s : State} {a : Nat} {c : Host.Cell} (h : cellAt s a = some c) : c.2 = byteAt s a := by
  by_cases hb : byteAt s a = unlistedByte
  · rw [cellAt, if_pos hb] at h
    cases h
  · rw [cellAt_of_ne hb] at h
    cases h
    rfl

/-- The list gives each address its byte, the unlisted ones too. -/
theorem read_cells (s : State) {a : Nat} (ha : a < 48) : Memory.read (cells s) a = byteAt s a := by
  rw [Memory.read]
  cases hfind : (cells s).find? (fun c => c.1 == a) with
  | some c =>
    have haddr : c.1 = a := eq_of_beq (List.find?_some (p := fun c : Host.Cell => c.1 == a) hfind)
    obtain ⟨-, hcell⟩ := (mem_cells_iff s c).mp (List.mem_of_find?_eq_some hfind)
    exact haddr ▸ cellAt_snd hcell
  | none =>
    by_contra hne
    have hmem : (a, byteAt s a) ∈ cells s := (mem_cells_iff s _).mpr ⟨ha, cellAt_of_ne (Ne.symm hne)⟩
    exact List.find?_eq_none.mp hfind _ hmem (beq_self_eq_true a)

/-- Settles O60: the list is the filter of the 48 bytes, which reading it gives back. -/
theorem cellListIsCanonical : Obligations.CellListIsCanonical := by
  intro s s'
  refine ⟨cells_wf s, fun _ => read_cells s, fun heq a ha => ?_, fun hbytes => ?_⟩
  · rw [← read_cells s ha, heq, read_cells s' ha]
  · refine List.filterMap_congr fun a ha => ?_
    rw [cellAt, cellAt, hbytes a (List.mem_range.mp ha)]

end Sys2Proof.Machine
end

section
/-! LAWS. The feedback sampler (42_feedback_sampler.md): one completion, a scan from any slot, executions without a completion, and the
sample as a slice of the converter's result. -/

namespace Sys2Proof.Machine

/-! ## One completion -/

/-- A slot after a sample was put into one of the four. -/
theorem getElem_set_sample (v : Vector Sample 4) (i j : Fin 4) (r : Sample) :
    (v.set i.val r)[j] = if j = i then r else v[j] := by
  rw [Fin.getElem_fin, Vector.getElem_set]
  simp only [Fin.ext_iff, eq_comm, Fin.getElem_fin]

/-- Settles O38: with RUN and CONV the handler's update, whose slot is the index before the advance; without one of them nothing. -/
theorem adcdoneStoresAndAdvances : Obligations.AdcdoneStoresAndAdvances := by
  refine fun s r => ⟨fun hrun hconv => ?_, fun hoff => ?_⟩
  · refine ⟨_, (exec_adcdone_of_run hrun r).trans (congrArg _ (sampleAction_of_conv hconv r)), ?_, fun j hj => ?_,
      Fin.val_add s.ch 1, rfl, ?_, rfl, ?_⟩
    · exact (getElem_set_sample s.smp s.ch s.ch r).trans (if_pos rfl)
    · exact (getElem_set_sample s.smp s.ch j r).trans (if_neg hj)
    · rw [← hconv]
    · rw [adcStart, hrun, hconv]
      rfl
  · by_cases hrun : s.run = true
    · have hconv : ¬ s.conv = true := by simpa [hrun] using hoff
      rw [exec_adcdone_of_run hrun, sampleAction_of_not_conv hconv]
    · exact exec_of_not_run rfl (Bool.not_eq_true _ ▸ hrun)

/-! ## A scan from any slot -/

/-- SMP after four completions from slot c. -/
def scannedFrom (c : Fin 4) (v r : Vector Sample 4) : Vector Sample 4 :=
  (((v.set c.val r[0]).set (c + 1).val r[1]).set (c + 2).val r[2]).set (c + 3).val r[3]

theorem scannedFrom_getElem (c : Fin 4) (v r : Vector Sample 4) (k : Fin 4) : (scannedFrom c v r)[c + k] = r[k] := by
  simp only [scannedFrom, getElem_set_sample, add_right_inj, add_eq_left]
  fin_cases k <;> rfl

/-- The four slots from any index on are all the slots, and the index returns. -/
theorem sampleAction_scan {s : State} (hconv : s.conv = true) (r : Vector Sample 4) :
    sampleAction r[3] (sampleAction r[2] (sampleAction r[1] (sampleAction r[0] s))) =
      { s with smp := scannedFrom s.ch s.smp r } := by
  have hindex : ∀ c : Fin 4, c + 1 + 1 = c + 2 ∧ c + 2 + 1 = c + 3 ∧ c + 3 + 1 = c := by decide
  obtain ⟨h2, h3, h4⟩ := hindex s.ch
  rw [sampleAction_of_conv hconv, sampleAction_of_conv (by exact rfl), sampleAction_of_conv (by exact rfl),
    sampleAction_of_conv (by exact rfl)]
  simp only [h2, h3, h4, ← hconv]
  rfl

/-- Settles O39: four completions put the results into the slots CH, CH + 1, CH + 2 and CH + 3. -/
theorem fourCompletionsRefreshEverySlot : Obligations.FourCompletionsRefreshEverySlot := by
  intro s r hrun hconv
  refine ⟨{ s with smp := scannedFrom s.ch s.smp r }, ?_, scannedFrom_getElem s.ch s.smp r, rfl⟩
  rw [← sampleAction_scan hconv r, adcScan]
  iterate 4 rw [runOps_cons_of_next (exec_adcdone_of_run (by simp only [sampleAction_run, hrun]) _)]
  rfl

/-! ## Executions without a completion -/

/-- The sampler's registers agree. -/
def SameSampler (s t : State) : Prop := t.smp = s.smp ∧ t.ch = s.ch ∧ t.conv = s.conv

theorem SameSampler.refl (s : State) : SameSampler s s := ⟨rfl, rfl, rfl⟩

theorem SameSampler.trans {s t u : State} (h : SameSampler s t) (k : SameSampler t u) : SameSampler s u :=
  ⟨k.1.trans h.1, k.2.1.trans h.2.1, k.2.2.trans h.2.2⟩

/-- No effect but ADCDONE's, RESET's and INIT's writes the sampler. -/
theorem effectOf_sameSampler {i : Instr} (h : noCompletion [i] = true) (s : State) : SameSampler s (effectOf i s) := by
  cases i with
  | idle => exact .refl s
  | reset => cases h
  | init => cases h
  | adcdone r => cases h
  | clk => exact iteInduction (fun _ => by rw [clkAction_only]; exact .refl s) fun _ => .refl s
  | tick => exact iteInduction (fun _ => .refl s) fun _ => .refl s
  | edge => exact iteInduction (fun _ => by rw [edgeAction_only s]; exact .refl s) fun _ => .refl s
  | lstep => exact iteInduction (fun _ => by rw [loopAction_only]; exact .refl s) fun _ => .refl s

theorem ne_init_of_noCompletion {i : Instr} (h : noCompletion [i] = true) : i ≠ .init := by
  rintro rfl
  cases h

theorem noCompletion_cons (i : Instr) (ops : List Instr) :
    noCompletion (i :: ops) = true ↔ noCompletion [i] = true ∧ noCompletion ops = true := by
  simp only [noCompletion, List.all_cons, List.all_nil, Bool.and_true, Bool.and_eq_true]

/-- Settles O40: by induction on the operations, none of which writes the sampler. -/
theorem missedCompletionFreezesTheSampler : Obligations.MissedCompletionFreezesTheSampler := by
  intro ops
  induction ops with
  | nil => exact fun s _ => ⟨s, rfl, SameSampler.refl s⟩
  | cons i ops ih =>
    intro s h
    obtain ⟨hi, hops⟩ := (noCompletion_cons i ops).mp h
    obtain ⟨t, hrun, ht⟩ := ih (effectOf i s) hops
    exact ⟨t, (runOps_cons_of_next (exec_of_ne_init (ne_init_of_noCompletion hi) s) ops).trans hrun,
      (effectOf_sameSampler hi s).trans ht⟩

/-! ## The sample of a result -/

/-- The quotient fits a sample, so nothing of it is lost. -/
theorem sampleOf_toNat (res : BitVec Config.adcBits) : (sampleOf res).toNat = res.toNat / 2 ^ (Config.adcBits - 8) := by
  have hbits : Config.adcBits = Config.adcBits - 8 + 8 := by rw [adcBits_eq]; omega
  have hlt : res.toNat < 2 ^ (Config.adcBits - 8) * 2 ^ 8 := by rw [← Nat.pow_add, ← hbits]; exact res.isLt
  rw [sampleOf, BitVec.toNat_ofNat]
  exact Nat.mod_eq_of_lt (Nat.div_lt_of_lt_mul hlt)

/-- Settles O41: dividing by a power of two moves the bits down. -/
theorem sampleIsTheTopEightBits : Obligations.SampleIsTheTopEightBits := by
  refine fun res => ⟨sampleOf_toNat res, fun i _ => ?_⟩
  rw [BitVec.getLsbD, sampleOf_toNat, Nat.testBit_div_two_pow, Nat.add_comm]
  rfl

end Sys2Proof.Machine
end

section
/-! LAWS. Single steps of the control loop (45_control_loop.md): the control law on numbers, each phase, one iteration, the rate limit, and
an iteration with an edge inside it. -/

namespace Sys2Proof.Machine

/-- Settles O43: the three branches; each operation's exact value is its own lemma's. -/
theorem controlLawOnIntegers : Obligations.ControlLawOnIntegers := by
  intro period d im il vm vl
  rw [adjust, apply_ite BitVec.toNat, apply_ite BitVec.toNat, dec0_toNat, incP_toNat]
  rfl

/-! ## One phase -/

/-- The action of a phase does not move the phase. -/
theorem phaseAction_lph (p : Phase) (s : State) : (phaseAction p s).lph = s.lph := by rw [phaseAction_only]

theorem loopAction_of_phase {s : State} {p : Phase} (h : s.lph = p) :
    loopAction s = { phaseAction p s with lph := nextPhase p } := by
  subst h
  rw [loopAction, advancePhase, phaseAction_lph]

theorem exec_lstep_of_phase {s : State} (hrun : s.run = true) {p : Phase} (h : s.lph = p) :
    exec .lstep s = .next { phaseAction p s with lph := nextPhase p } := by
  rw [exec_lstep_of_run hrun, loopAction_of_phase h]

/-- Settles O42: the byte at each address is the element the phase loads. -/
theorem loadPhasesReadOneByteEach : Obligations.LoadPhasesReadOneByteEach := by
  intro s hrun
  have hsmp : ∀ i : Fin 4, memRead1 s (smpAddr i) = .ok s.smp[i] := fun i =>
    (memRead1_of_lt s (by rw [smpAddr]; omega)).trans (congrArg _ (byteAt_smp s i))
  have hsp : ∀ i : Fin 8, memRead1 s (spAddr i) = .ok s.sp[i] := fun i =>
    (memRead1_of_lt s (by rw [spAddr]; omega)).trans (congrArg _ (byteAt_sp s i))
  exact ⟨fun h => ⟨hsmp 2, exec_lstep_of_phase hrun h⟩, fun h => ⟨hsp 2, exec_lstep_of_phase hrun h⟩,
    fun h => ⟨hsmp 0, exec_lstep_of_phase hrun h⟩, fun h => ⟨hsp 0, exec_lstep_of_phase hrun h⟩,
    fun h => ⟨hsmp 3, exec_lstep_of_phase hrun h⟩, fun h => ⟨hsp 3, exec_lstep_of_phase hrun h⟩,
    fun h => ⟨hsmp 1, exec_lstep_of_phase hrun h⟩, fun h => ⟨hsp 1, exec_lstep_of_phase hrun h⟩⟩

/-- Settles O44: the actions of phases 4 and 9, with the phase advanced. -/
theorem adjustPhasesWriteTheirOwnDuty : Obligations.AdjustPhasesWriteTheirOwnDuty := fun _ hrun =>
  ⟨exec_lstep_of_phase hrun, exec_lstep_of_phase hrun⟩

/-- Settles O45: the advance does not look at the phase's action, and the action of the waiting phase is none. -/
theorem phaseAdvancesModuloEleven : Obligations.PhaseAdvancesModuloEleven := by
  intro s hrun
  refine ⟨_, exec_lstep_of_phase hrun rfl, phaseNumber_nextPhase s.lph, fun h => ?_⟩
  have hwait : s.lph = .wait := by
    have hphase := phaseOfNumber_phaseNumber s.lph
    rw [h] at hphase
    exact (Option.some.inj hphase).symm
  rw [hwait]
  rfl

/-- Settles O46: the eleven LSTEPs are `iterationAction`, whose components are the two adjusted duties and channel 2's operands. -/
theorem oneIterationAdjustsBothChannels : Obligations.OneIterationAdjustsBothChannels := fun s hrun hlph =>
  ⟨iterationAction s, runOps_loopIter hrun hlph, rfl, rfl, rfl⟩

/-! ## The rate limit -/

/-- A phase adjusts the duty of its own channel or none. -/
theorem dutyOf_phaseAction (p : Phase) (s : State) (c : Fin 2) :
    dutyOf (phaseAction p s) c =
      if p = adjustPhase c then adjust Config.period (dutyOf s c) s.aIm s.aIl s.aVm s.aVl else dutyOf s c := by
  fin_cases c <;> cases p <;> rfl

theorem dutyOf_loopAction (s : State) (c : Fin 2) : dutyOf (loopAction s) c = dutyOf (phaseAction s.lph s) c := rfl

/-- What a running block's operation can do to a duty. -/
theorem dutyOf_effectOf {i : Instr} (hi : isRunOp i = true) (s : State) (c : Fin 2) :
    dutyOf (effectOf i s) c = dutyOf s c ∨
    (i = .lstep ∧ s.run = true ∧ s.lph = adjustPhase c) ∧
      dutyOf (effectOf i s) c = adjust Config.period (dutyOf s c) s.aIm s.aIl s.aVm s.aVl := by
  cases hrun : s.run
  · exact .inl (by rw [effectOf_of_not_run hi hrun])
  cases i with
  | reset => cases hi
  | init => cases hi
  | idle => exact .inl rfl
  | clk => rw [effectOf, if_pos hrun, clkAction_only]; exact .inl rfl
  | tick => rw [effectOf, if_pos hrun]; exact .inl rfl
  | edge => rw [effectOf, if_pos hrun, edgeAction_only s]; exact .inl rfl
  | adcdone r => rw [effectOf, if_pos hrun, sampleAction_only]; exact .inl rfl
  | lstep =>
    rw [effectOf, if_pos hrun, dutyOf_loopAction, dutyOf_phaseAction]
    by_cases hphase : s.lph = adjustPhase c
    · exact .inr ⟨⟨rfl, rfl, hphase⟩, if_pos hphase⟩
    · exact .inl (if_neg hphase)

/-- Settles O48: the duty stays, or its own adjusting phase moves it by the control law, which moves it by one count or none. -/
theorem dutyMovesAtMostOneCount : Obligations.DutyMovesAtMostOneCount := by
  intro i s t c hi hexec hle
  obtain ⟨-, rfl⟩ := (exec_next_iff i s t).mp hexec
  obtain hsame | ⟨hadjusts, hlaw⟩ := dutyOf_effectOf hi s c
  · rw [hsame]
    exact ⟨Nat.le_succ _, Nat.le_succ _, hle, fun hne => absurd rfl hne⟩
  · rw [hlaw]
    obtain ⟨hup, hdown, hperiod⟩ := adjust_bounds hle s.aIm s.aIl s.aVm s.aVl
    exact ⟨hup, hdown, hperiod, fun _ => hadjusts⟩

/-! ## An edge inside an iteration -/

theorem loopAction_iterate_run (n : Nat) (s : State) : (loopAction^[n] s).run = s.run := by
  induction n with
  | zero => rfl
  | succ n ih => rw [Function.iterate_succ_apply', loopAction_run, ih]

/-- No phase writes the decoder's registers. -/
theorem loopAction_iterate_eq_withDecoder (n : Nat) (s : State) :
    loopAction^[n] s = withDecoder (loopAction^[n] s) s := by
  induction n with
  | zero => rfl
  | succ n ih =>
    rw [Function.iterate_succ_apply', loopAction_only, ih]
    rfl

theorem runOps_edge_in_iteration (m n : Nat) {s : State} (hrun : s.run = true) :
    runOps (List.replicate m .lstep ++ [.edge] ++ List.replicate n .lstep) s =
      .next (loopAction^[n] (withDecoder (loopAction^[m] s) (edgeAction s))) := by
  have hmid : (loopAction^[m] s).run = true := (loopAction_iterate_run m s).trans hrun
  have hedge : edgeAction (loopAction^[m] s) = withDecoder (loopAction^[m] s) (edgeAction s) := by
    conv_lhs => rw [loopAction_iterate_eq_withDecoder m s]
    exact edgeAction_withDecoder _ s
  rw [List.append_assoc, runOps_append_of_next (runOps_replicate_lstep m hrun), List.cons_append,
    runOps_cons_of_next (exec_edge_of_run hmid), hedge, List.nil_append]
  exact runOps_replicate_lstep n hmid

/-- Phases one after another, the decoder's registers being those of `d n` when phase n runs. -/
def phasesOn (d : Nat → State) (s : State) : Nat → State
  | 0 => s
  | n + 1 => loopAction (withDecoder (phasesOn d s n) (d n))

theorem phasesOn_add (d : Nat → State) (s : State) (m n : Nat) :
    phasesOn d s (m + n) = phasesOn (fun j => d (m + j)) (phasesOn d s m) n := by
  induction n with
  | zero => rfl
  | succ n ih => rw [← Nat.add_assoc, phasesOn, phasesOn, ih]

/-- Phases 0 to 4: channel 1's setpoints are read in phases 1 and 3 (R231, R248). -/
theorem phasesOn_channel_one (d : Nat → State) {s : State} (h : s.lph = .ldIm1) :
    phasesOn d s 5 =
      { withDecoder s (d 4) with
        duty1 := adjust Config.period s.duty1 s.smp[2] (d 1).sp[2] s.smp[0] (d 3).sp[0]
        aIm := s.smp[2]
        aIl := (d 1).sp[2]
        aVm := s.smp[0]
        aVl := (d 3).sp[0]
        lph := .ldIm2 } := by
  obtain ⟨⟩ := s
  subst h
  rfl

/-- Phases 5 to 10, numbered from 0: channel 2's setpoints are read in phases 6 and 8. -/
theorem phasesOn_channel_two (d : Nat → State) {s : State} (h : s.lph = .ldIm2) :
    phasesOn d s 6 =
      { withDecoder s (d 5) with
        duty2 := adjust Config.period s.duty2 s.smp[3] (d 1).sp[3] s.smp[1] (d 3).sp[1]
        aIm := s.smp[3]
        aIl := (d 1).sp[3]
        aVm := s.smp[1]
        aVl := (d 3).sp[1]
        lph := .ldIm1 } := by
  obtain ⟨⟩ := s
  subst h
  rfl

theorem phasesOn_eleven (d : Nat → State) {s : State} (h : s.lph = .ldIm1) :
    (phasesOn d s 11).duty1 = adjust Config.period s.duty1 s.smp[2] (d 1).sp[2] s.smp[0] (d 3).sp[0] ∧
    (phasesOn d s 11).duty2 = adjust Config.period s.duty2 s.smp[3] (d 6).sp[3] s.smp[1] (d 8).sp[1] ∧
    (phasesOn d s 11).lph = .ldIm1 := by
  have hmid := phasesOn_channel_one d h
  have hend := phasesOn_add d s 5 6
  rw [phasesOn_channel_two _ (by rw [hmid]), hmid] at hend
  rw [hend]
  exact ⟨rfl, rfl, rfl⟩

/-- While the decoder's registers stand, the phases are the loop's own steps. -/
theorem phasesOn_of_same {d : Nat → State} {s : State} {n : Nat} (h : ∀ j < n, d j = s) :
    phasesOn d s n = loopAction^[n] s := by
  induction n with
  | zero => rfl
  | succ n ih =>
    rw [phasesOn, ih fun j hj => h j (by omega), h n (by omega), ← loopAction_iterate_eq_withDecoder,
      Function.iterate_succ_apply']

theorem loopAction_withDecoder (s u : State) : withDecoder (loopAction (withDecoder s u)) u = loopAction (withDecoder s u) := by
  rw [loopAction_only]
  rfl

theorem phasesOn_add_of_same {d : Nat → State} {s u : State} {k : Nat} (h : ∀ j ≥ k, d j = u) (m : Nat) :
    withDecoder (phasesOn d s (k + m)) u = loopAction^[m] (withDecoder (phasesOn d s k) u) := by
  induction m with
  | zero => rfl
  | succ m ih =>
    rw [← Nat.add_assoc, phasesOn, h (k + m) (by omega), loopAction_withDecoder, ih, Function.iterate_succ_apply']

/-- The decoder's registers of each phase when the edge that leads from s to u comes after k phases. -/
def decoderAround (k : Nat) (s u : State) (j : Nat) : State := if j < k then s else u

theorem decoderAround_sp (k : Nat) (s u : State) (j : Nat) (i : Fin 8) :
    (decoderAround k s u j).sp[i] = if k ≤ j then u.sp[i] else s.sp[i] := by
  by_cases h : j < k
  · rw [decoderAround, if_pos h, if_neg (by omega)]
  · rw [decoderAround, if_neg h, if_pos (by omega)]

/-- Settles O49: the phases before the edge find the registers of s, those after it the registers of u, and a setpoint is read in one
phase. -/
theorem edgeInAnIterationTearsTheSetpoints : Obligations.EdgeInAnIterationTearsTheSetpoints := by
  intro s u k hrun hlph hk hexec
  have hu : edgeAction s = u := Host.Outcome.next.inj ((exec_edge_of_run hrun).symm.trans hexec)
  have hbefore := phasesOn_of_same (d := decoderAround k s u) (s := s) (n := k) fun j hj => if_pos hj
  have hafter := phasesOn_add_of_same (d := decoderAround k s u) (s := s) (k := k) (u := u)
    (fun j hj => if_neg (Nat.not_lt.mpr hj)) (11 - k)
  rw [Nat.add_sub_of_le hk, hbefore] at hafter
  obtain ⟨hduty1, hduty2, hlph'⟩ := phasesOn_eleven (decoderAround k s u) hlph
  refine ⟨_, runOps_edge_in_iteration k (11 - k) hrun, ?_⟩
  rw [hu, ← hafter]
  refine ⟨hduty1.trans ?_, hduty2.trans ?_, rfl, hlph'⟩
  · exact congrArg₂ (adjust _ _ _ · _ ·) (decoderAround_sp k s u 1 2) (decoderAround_sp k s u 3 0)
  · exact congrArg₂ (adjust _ _ _ · _ ·) (decoderAround_sp k s u 6 3) (decoderAround_sp k s u 8 1)

end Sys2Proof.Machine
end

section
/-! LAWS. Interrupts and interleavings (60_exceptions.md): what a handler leaves alone, the two orders of a tick and an edge, and the pairs of
operations whose order does not matter. -/

namespace Sys2Proof.Machine

/-- Settles O50: the three handlers are those of TICK, EDGE and ADCDONE, each with its own frame. -/
theorem handlersLeaveTheMainLoopAlone : Obligations.HandlersLeaveTheMainLoopAlone := by
  intro i s hi
  refine ⟨effectOf i s, exec_of_ne_init (by rintro rfl; cases hi) s, ?_⟩
  cases i with
  | tick =>
    rw [effectOf]
    split
    · rfl
    · rfl
  | edge =>
    rw [effectOf]
    split
    · rw [edgeAction_only s]
    · rfl
  | adcdone r =>
    rw [effectOf]
    split
    · rw [sampleAction_only]
    · rfl
  | _ => cases hi

/-! ## A coinciding tick and edge -/

theorem runOps_pair {i j : Instr} {s t u : State} (hi : exec i s = .next t) (hj : exec j t = .next u) :
    runOps [i, j] s = .next u := by
  rw [runOps_cons_of_next hi, runOps_cons_of_next hj, runOps_nil]

theorem edgeAction_run (s : State) : (edgeAction s).run = s.run := by rw [edgeAction_only s]

/-- The bit a data edge shifts in is that of its interval (R93, R200). -/
theorem edgeAction_bit {s : State} (hp : s.pulse ≠ 255) (hdata : s.ecnt.toNat % 2 = 1) :
    (edgeAction s).byte.getLsbD 0 = bitOf s.pulse := by
  have hlow : ∀ (acc : Byte) (b : Bool), (shiftIn acc b).getLsbD 0 = b := by decide
  have hbyte : (edgeAction s).byte = byteAfterDataEdge s := by
    have hstep := edgeStep_edgeAction s
    generalize edgeAction s = t at hstep
    cases hstep with
    | resync h => exact absurd h hp
    | clock _ he => omega
    | bit => rfl
    | byteEnd => rfl
    | frameEnd => rfl
  rw [hbyte]
  exact hlow _ _

/-- Settles O51: the edge clears PULSE, so its order with the tick shows in PULSE; and at 4 ticks the tick before it crosses the
threshold. -/
theorem tickAndEdgeRunInEitherOrder : Obligations.TickAndEdgeRunInEitherOrder := by
  refine ⟨rfl, fun s hrun => ?_⟩
  refine ⟨edgeAction (tickAction s), tickAction (edgeAction s), runOps_pair (exec_tick_of_run hrun) (exec_edge_of_run hrun),
    runOps_pair (exec_edge_of_run hrun) (exec_tick_of_run ((edgeAction_run s).trans hrun)), edgeAction_pulse _, ?_, ?_⟩
  · rw [tickAction_pulse, edgeAction_pulse]
    rfl
  · intro hp hdata
    have hticked : (tickAction s).pulse = 5 := by rw [tickAction_pulse, hp]; rfl
    constructor
    · rw [edgeAction_bit (by rw [hticked]; decide) (by exact hdata), hticked]
      rfl
    · rw [tickAction_byte, edgeAction_bit (by rw [hp]; decide) hdata, hp]
      rfl

/-! ## Pairs whose order does not matter -/

/-- An effect that reads and writes the decoder's registers only (R38's TICK and EDGE columns). -/
structure ActsOnDecoder (g : State → State) : Prop where
  writes : ∀ s, g s = withDecoder s (g s)
  reads : ∀ s d, g (withDecoder s d) = withDecoder s (g d)

theorem tickAction_actsOnDecoder : ActsOnDecoder tickAction := ⟨fun _ => rfl, fun _ _ => rfl⟩

theorem edgeAction_actsOnDecoder : ActsOnDecoder edgeAction := ⟨edgeAction_eq_withDecoder, edgeAction_withDecoder⟩

/-- It commutes with an effect that leaves the decoder's registers alone and does not see what it makes of them. -/
theorem ActsOnDecoder.commutes {g f : State → State} (hg : ActsOnDecoder g) {s : State} (hwrites : f s = withDecoder (f s) s)
    (hreads : f (withDecoder s (g s)) = withDecoder (f s) (g s)) : g (f s) = f (g s) := by
  rw [hg.writes s, hreads, hwrites, hg.reads]
  rfl

/-- The main loop sees of the decoder's registers only the setpoint its phase reads. -/
theorem phaseAction_withDecoder {p : Phase} {s d : State}
    (h : (phaseReads p).any (fun a => decide (a ∈ spAddrs)) = false ∨ d.sp = s.sp) :
    phaseAction p (withDecoder s d) = withDecoder (phaseAction p s) d := by
  have hload : ∀ i : Fin 4, d.sp = s.sp → readSetpoint (withDecoder s d) i = readSetpoint s i := by
    intro i hsp
    rw [readSetpoint, readSetpoint, ← hsp]
    rfl
  cases p with
  | ldIl1 =>
    obtain hnone | hsp := h
    · exact absurd hnone (by decide)
    · exact congrArg (fun v => { withDecoder s d with aIl := v }) (hload 2 hsp)
  | ldVl1 =>
    obtain hnone | hsp := h
    · exact absurd hnone (by decide)
    · exact congrArg (fun v => { withDecoder s d with aVl := v }) (hload 0 hsp)
  | ldIl2 =>
    obtain hnone | hsp := h
    · exact absurd hnone (by decide)
    · exact congrArg (fun v => { withDecoder s d with aIl := v }) (hload 3 hsp)
  | ldVl2 =>
    obtain hnone | hsp := h
    · exact absurd hnone (by decide)
    · exact congrArg (fun v => { withDecoder s d with aVl := v }) (hload 1 hsp)
  | _ => rfl

theorem ActsOnDecoder.commutes_loopAction {g : State → State} (hg : ActsOnDecoder g) {s : State}
    (h : (phaseReads s.lph).any (fun a => decide (a ∈ spAddrs)) = false ∨ (g s).sp = s.sp) :
    g (loopAction s) = loopAction (g s) := by
  refine hg.commutes (by rw [loopAction_only]; rfl) ?_
  exact congrArg advancePhase (phaseAction_withDecoder h)

theorem ActsOnDecoder.commutes_sampleAction {g : State → State} (hg : ActsOnDecoder g) (r : Sample) (s : State) :
    g (sampleAction r s) = sampleAction r (g s) := by
  refine hg.commutes (by rw [sampleAction_only]; rfl) ?_
  by_cases hconv : s.conv = true
  · rw [sampleAction_of_conv hconv, sampleAction_of_conv (by exact hconv)]
    rfl
  · rw [sampleAction_of_not_conv hconv, sampleAction_of_not_conv (by exact hconv)]

/-- A clock with an effect that neither writes nor reads the timers. -/
theorem clkAction_commutes {f : State → State} {s : State} (hper : (f s).per1 = s.per1) (hcnt : (f s).cnt1 = s.cnt1)
    (hcount : countTimers (f s) = f (countTimers s))
    (htick : tickAction (f (countTimers s)) = f (tickAction (countTimers s))) : clkAction (f s) = f (clkAction s) := by
  by_cases h : wraps s.per1 s.cnt1
  · rw [clkAction_of_wraps h, clkAction_of_wraps (by rw [hper, hcnt]; exact h), hcount, htick]
  · rw [clkAction_of_not_wraps h, clkAction_of_not_wraps (by rw [hper, hcnt]; exact h), hcount]

theorem clkAction_tickAction (s : State) : clkAction (tickAction s) = tickAction (clkAction s) :=
  clkAction_commutes rfl rfl rfl rfl

theorem clkAction_sampleAction (r : Sample) (s : State) : clkAction (sampleAction r s) = sampleAction r (clkAction s) := by
  refine clkAction_commutes (by rw [sampleAction_only]) (by rw [sampleAction_only]) ?_
    (tickAction_actsOnDecoder.commutes_sampleAction r _)
  by_cases hconv : s.conv = true
  · rw [sampleAction_of_conv hconv, sampleAction_of_conv (by exact hconv)]
    rfl
  · rw [sampleAction_of_not_conv hconv, sampleAction_of_not_conv (by exact hconv)]

theorem phaseAction_countTimers (p : Phase) (s : State) : phaseAction p (countTimers s) = countTimers (phaseAction p s) := by
  cases p <;> rfl

theorem clkAction_loopAction (s : State) : clkAction (loopAction s) = loopAction (clkAction s) :=
  clkAction_commutes (by rw [loopAction_only]) (by rw [loopAction_only])
    (congrArg advancePhase (phaseAction_countTimers s.lph s).symm)
    (tickAction_actsOnDecoder.commutes_loopAction (.inr rfl))

/-- An edge and a clock that does not tick. -/
theorem edgeAction_clkAction {s : State} (h : ¬ wraps s.per1 s.cnt1) : edgeAction (clkAction s) = clkAction (edgeAction s) := by
  have hsame : clkAction (edgeAction s) = countTimers (edgeAction s) := by
    rw [edgeAction_only s]
    exact clkAction_of_not_wraps h
  rw [clkAction_of_not_wraps h, hsame]
  exact edgeAction_actsOnDecoder.commutes rfl rfl

/-- A completion's update (R171): the result into the slot CH names, and the next one armed. -/
def storeSample (r : Sample) (s : State) : State := { s with smp := s.smp.set s.ch.val r, ch := s.ch + 1, conv := true }

theorem sampleAction_eq_storeSample {s : State} (h : s.conv = true) (r : Sample) : sampleAction r s = storeSample r s :=
  sampleAction_of_conv h r

/-- A sample goes into a slot the phase does not read. -/
theorem phaseAction_storeSample {p : Phase} {s : State} (r : Sample) (h : smpAddr s.ch.val ∉ phaseReads p) :
    phaseAction p (storeSample r s) = storeSample r (phaseAction p s) := by
  have hload : ∀ i : Fin 4, smpAddr i.val ∈ phaseReads p → (s.smp.set s.ch.val r)[i] = s.smp[i] := by
    refine fun i hi => (getElem_set_sample s.smp s.ch i r).trans (if_neg ?_)
    rintro rfl
    exact h hi
  cases p with
  | ldIm1 => exact congrArg (fun v => { storeSample r s with aIm := v }) (hload 2 (by decide))
  | ldVm1 => exact congrArg (fun v => { storeSample r s with aVm := v }) (hload 0 (by decide))
  | ldIm2 => exact congrArg (fun v => { storeSample r s with aIm := v }) (hload 3 (by decide))
  | ldVm2 => exact congrArg (fun v => { storeSample r s with aVm := v }) (hload 1 (by decide))
  | _ => rfl

theorem loopAction_sampleAction {s : State} (r : Sample) (h : smpAddr s.ch.val ∉ phaseReads s.lph) :
    loopAction (sampleAction r s) = sampleAction r (loopAction s) := by
  by_cases hconv : s.conv = true
  · have hconv' : (loopAction s).conv = true := by rw [loopAction_only]; exact hconv
    rw [sampleAction_eq_storeSample hconv, sampleAction_eq_storeSample hconv']
    exact congrArg advancePhase (phaseAction_storeSample r h)
  · have hconv' : ¬ (loopAction s).conv = true := by rw [loopAction_only]; exact hconv
    rw [sampleAction_of_not_conv hconv, sampleAction_of_not_conv hconv']

/-- An edge that does not publish leaves SP (R205, R206). -/
theorem edgeAction_sp_of_not_publishes {s : State} (hrun : s.run = true) (h : publishes s = false) :
    (edgeAction s).sp = s.sp := by
  by_contra hsp
  obtain ⟨hpublishes, -⟩ := publishes_of_sp_ne hrun (edgeStep_edgeAction s) hsp
  exact Bool.false_ne_true (h.symm.trans hpublishes)

theorem edgeAction_loopAction {s : State} (hrun : s.run = true)
    (h : (publishes s && (phaseReads s.lph).any (fun a => decide (a ∈ spAddrs))) = false) :
    edgeAction (loopAction s) = loopAction (edgeAction s) := by
  refine edgeAction_actsOnDecoder.commutes_loopAction ?_
  obtain hpublishes | hreads := Bool.and_eq_false_iff.mp h
  · exact .inr (edgeAction_sp_of_not_publishes hrun hpublishes)
  · exact .inl hreads

/-! ## Every pair -/

/-- The effect of an operation of a running block, without the RUN gate. -/
def actionOf : Instr → State → State
  | .idle => id
  | .reset => resetBlock
  | .init => configure
  | .clk => clkAction
  | .tick => tickAction
  | .edge => edgeAction
  | .adcdone r => sampleAction r
  | .lstep => loopAction

theorem effectOf_of_run {s : State} (hrun : s.run = true) (i : Instr) : effectOf i s = actionOf i s := by
  cases i with
  | idle => rfl
  | reset => rfl
  | init => rfl
  | _ => exact if_pos hrun

/-- An order of the agents in which R281 names the first of a pair first. -/
def agentRank : Instr → Nat
  | .idle => 0
  | .edge => 1
  | .adcdone _ => 2
  | .clk => 3
  | .tick => 4
  | .lstep => 5
  | .reset => 6
  | .init => 7

/-- The agent of each rank. -/
def agentAtRank : Nat → Option Agent
  | 0 => none
  | 1 => some .decoder
  | 2 => some .sampler
  | 3 => some .pwmTimers
  | 4 => some .referenceCounter
  | 5 => some .controlLoop
  | 6 => some .environment
  | _ => some .configurator

theorem agentOf_eq_agentAtRank (i : Instr) : agentOf i = agentAtRank (agentRank i) := by
  cases i <;> rfl

/-- The ten pairs of different agents, R281's three exceptions left out, and IDLE with any. -/
theorem actionOf_commutes_of_rank_lt {i j : Instr} (hj : isRunOp j = true) (hrank : agentRank i < agentRank j) {s : State}
    (hrun : s.run = true) (h : conflicts s i j = false) : actionOf i (actionOf j s) = actionOf j (actionOf i s) := by
  cases i with
  | idle => rfl
  | edge =>
    cases j with
    | tick => cases h
    | clk => exact edgeAction_clkAction (of_decide_eq_false h)
    | lstep => exact edgeAction_loopAction hrun h
    | adcdone r => exact edgeAction_actsOnDecoder.commutes_sampleAction r s
    | idle => simp [agentRank] at hrank
    | edge => simp [agentRank] at hrank
    | _ => cases hj
  | adcdone r =>
    cases j with
    | clk => exact (clkAction_sampleAction r s).symm
    | tick => exact (tickAction_actsOnDecoder.commutes_sampleAction r s).symm
    | lstep => exact (loopAction_sampleAction r (of_decide_eq_false h)).symm
    | idle => simp [agentRank] at hrank
    | edge => simp [agentRank] at hrank
    | adcdone _ => simp [agentRank] at hrank
    | _ => cases hj
  | clk =>
    cases j with
    | tick => exact clkAction_tickAction s
    | lstep => exact clkAction_loopAction s
    | reset => cases hj
    | init => cases hj
    | _ => simp [agentRank] at hrank
  | tick =>
    cases j with
    | lstep => exact tickAction_actsOnDecoder.commutes_loopAction (.inr rfl)
    | reset => cases hj
    | init => cases hj
    | _ => simp [agentRank] at hrank
  | _ =>
    cases j with
    | reset => cases hj
    | init => cases hj
    | _ => simp [agentRank] at hrank

/-- Of two agents one has the lower rank, so the ten pairs are all. -/
theorem actionOf_commutes {i j : Instr} (hi : isRunOp i = true) (hj : isRunOp j = true) (hagents : agentOf i ≠ agentOf j)
    {s : State} (hrun : s.run = true) (hij : conflicts s i j = false) (hji : conflicts s j i = false) :
    actionOf i (actionOf j s) = actionOf j (actionOf i s) := by
  obtain hlt | heq | hgt := Nat.lt_trichotomy (agentRank i) (agentRank j)
  · exact actionOf_commutes_of_rank_lt hj hlt hrun hij
  · rw [agentOf_eq_agentAtRank, agentOf_eq_agentAtRank, heq] at hagents
    exact absurd rfl hagents
  · exact (actionOf_commutes_of_rank_lt hi hgt hrun hji).symm

theorem effectOf_commutes {i j : Instr} (hi : isRunOp i = true) (hj : isRunOp j = true) (hagents : agentOf i ≠ agentOf j)
    {s : State} (hij : conflicts s i j = false) (hji : conflicts s j i = false) :
    effectOf i (effectOf j s) = effectOf j (effectOf i s) := by
  cases hrun : s.run
  · rw [effectOf_of_not_run hi hrun, effectOf_of_not_run hj hrun, effectOf_of_not_run hi hrun]
  · rw [effectOf_of_run ((effectOf_run_of_isRunOp hj s).trans hrun), effectOf_of_run ((effectOf_run_of_isRunOp hi s).trans hrun),
      effectOf_of_run hrun, effectOf_of_run hrun, actionOf_commutes hi hj hagents hrun hij hji]

/-- Settles O52: the effects write different registers, and neither reads what the other writes but in the three listed conflicts. -/
theorem independentAgentsCommute : Obligations.IndependentAgentsCommute := by
  intro i j s hi hj hagents hij hji
  refine ⟨effectOf i s, effectOf j s, effectOf j (effectOf i s), exec_of_isRunOp hi s, exec_of_isRunOp hj _,
    exec_of_isRunOp hj s, ?_⟩
  rw [exec_of_isRunOp hi, effectOf_commutes hi hj hagents hij hji]

end Sys2Proof.Machine
end

section
/-! LAWS. The access table (10_state.md R38, 20_memory.md R72) against the effects: no operation changes a byte it is not listed to store
to, and what it stores depends only on the bytes it is listed to read. -/

namespace Sys2Proof.Machine

/-! ## States that agree off some addresses -/

/-- Every byte but those at the addresses given is the same. -/
def AgreeOff (as : List Nat) (s t : State) : Prop := ∀ a, a ∉ as → byteAt t a = byteAt s a

theorem AgreeOff.refl (as : List Nat) (s : State) : AgreeOff as s s := fun _ _ => rfl

theorem AgreeOff.trans {as bs : List Nat} {s t u : State} (h : AgreeOff as s t) (k : AgreeOff bs t u) :
    AgreeOff (as ++ bs) s u := fun a ha =>
  (k a fun hb => ha (List.mem_append_right as hb)).trans (h a fun hb => ha (List.mem_append_left bs hb))

/-- Bytes put one after another into a list of bytes. -/
def setBytes (ws : List (Nat × Byte)) (bytes : List Byte) : List Byte := ws.foldl (fun l w => l.set w.1 w.2) bytes

theorem getElem?_setBytes {ws : List (Nat × Byte)} {a : Nat} (h : a ∉ ws.map Prod.fst) (bytes : List Byte) :
    (setBytes ws bytes)[a]? = bytes[a]? := by
  induction ws generalizing bytes with
  | nil => rfl
  | cons w ws ih =>
    obtain ⟨hw, hws⟩ := List.ne_and_not_mem_of_not_mem_cons h
    exact (ih hws (bytes.set w.1 w.2)).trans (List.getElem?_set_ne (Ne.symm hw))

/-- An effect that puts bytes into the data space at some addresses changes no other byte. -/
theorem agreeOff_of_image {s t : State} (as : List Nat)
    (h : image t = setBytes (as.map fun a => (a, (image t).getD a 0)) (image s)) : AgreeOff as s t := by
  intro a ha
  have haddr : a ∉ (as.map fun a => (a, (image t).getD a 0)).map Prod.fst := by
    rw [List.map_map]
    exact (List.map_id as).symm ▸ ha
  rw [byteAt_eq_getElem?, byteAt_eq_getElem?, h, getElem?_setBytes haddr]

/-! ## What each effect puts where -/

theorem agreeOff_tickAction (s : State) : AgreeOff [pulseAddr] s (tickAction s) :=
  agreeOff_of_image _ (by rw [image_eq, image_eq]; rfl)

theorem agreeOff_countTimers (s : State) : AgreeOff counterAddrs s (countTimers s) :=
  agreeOff_of_image _ (by rw [image_eq, image_eq]; rfl)

theorem agreeOff_clkAction (s : State) :
    AgreeOff (counterAddrs ++ (if wraps s.per1 s.cnt1 then [pulseAddr] else [])) s (clkAction s) := by
  by_cases h : wraps s.per1 s.cnt1
  · rw [clkAction_of_wraps h, if_pos h]
    exact (agreeOff_countTimers s).trans (agreeOff_tickAction _)
  · rw [clkAction_of_not_wraps h, if_neg h, List.append_nil]
    exact agreeOff_countTimers s

theorem agreeOff_configure (s : State) : AgreeOff ([ctrlAddr, lphAddr, sctlAddr] ++ pwmAddrs) s (configure s) :=
  agreeOff_of_image _ (by rw [image_eq, image_eq]; rfl)

theorem agreeOff_set_cmd (s : State) (k : Nat) (b : Byte) :
    AgreeOff (cmdStore k) s { s with cmd := s.cmd.setIfInBounds k b } := by
  by_cases h : k < 8
  · have hwrites : image { s with cmd := s.cmd.setIfInBounds k b } = (image s).set (cmdAddr k) b :=
      image_set_cmd s ⟨k, h⟩ b
    intro a ha
    rw [cmdStore, if_pos (by exact h), List.mem_singleton] at ha
    rw [byteAt_eq_getElem?, byteAt_eq_getElem?, hwrites, List.getElem?_set_ne (Ne.symm ha)]
  · have hsame : s.cmd.setIfInBounds k b = s.cmd := Vector.setIfInBounds_eq_of_size_le (Nat.not_lt.mp h)
    rw [hsame]
    exact .refl _ s

theorem agreeOff_storeSample (r : Sample) (s : State) : AgreeOff [smpAddr s.ch.val, sctlAddr] s (storeSample r s) := by
  have hset : s.smp.set s.ch.val r = s.smp.setIfInBounds s.ch.val r :=
    Vector.ext fun j hj => by rw [Vector.getElem_set, Vector.getElem_setIfInBounds]
  have hslot : AgreeOff [smpAddr s.ch.val] s { s with smp := s.smp.set s.ch.val r } := by
    intro a ha
    rw [byteAt_eq_getElem?, byteAt_eq_getElem?, hset, image_set_smp, List.getElem?_set_ne (List.ne_of_not_mem_cons ha).symm]
  have hctl : AgreeOff [sctlAddr] { s with smp := s.smp.set s.ch.val r } (storeSample r s) :=
    agreeOff_of_image _ (by rw [image_eq, image_eq]; rfl)
  exact hslot.trans hctl

theorem agreeOff_sampleAction (r : Sample) (s : State) :
    AgreeOff (if s.conv then [smpAddr s.ch.val, sctlAddr] else []) s (sampleAction r s) := by
  by_cases hconv : s.conv = true
  · rw [if_pos hconv, sampleAction_eq_storeSample hconv]
    exact agreeOff_storeSample r s
  · rw [sampleAction_of_not_conv hconv]
    exact .refl _ s

theorem agreeOff_phaseAction (p : Phase) (s : State) : AgreeOff (phaseStores p) s (phaseAction p s) := by
  refine agreeOff_of_image _ ?_
  rw [image_eq, image_eq]
  cases p <;> rfl

theorem agreeOff_advancePhase (s : State) : AgreeOff [lphAddr] s (advancePhase s) :=
  agreeOff_of_image _ (by rw [image_eq, image_eq]; rfl)

theorem AgreeOff.mono {as bs : List Nat} {s t : State} (h : AgreeOff as s t) (hsub : as ⊆ bs) : AgreeOff bs s t :=
  fun a ha => h a fun hmem => ha (hsub hmem)

theorem agreeOff_loopAction (s : State) : AgreeOff (lphAddr :: phaseStores s.lph) s (loopAction s) :=
  ((agreeOff_phaseAction s.lph s).trans (agreeOff_advancePhase _)).mono fun _ ha =>
    (List.mem_append.mp ha).elim (List.mem_cons_of_mem _) (fun h => List.mem_cons.mpr (.inl (List.mem_singleton.mp h)))

/-! ## What an edge stores to, case by case -/

theorem edgeCount_of_resync {s : State} (hp : s.pulse = 255) : edgeCount s = 0 := by
  rw [edgeCount, show s.pulse = Config.sat from hp, edgeResync_of_sat]

theorem edgeCount_of_ne {s : State} (hp : s.pulse ≠ 255) : edgeCount s = s.ecnt := by
  rw [edgeCount, edgeResync_of_ne hp]

theorem beforeFrameStep_ecnt (s : State) : (beforeFrameStep s).ecnt = edgeCount s := by
  rw [beforeFrameStep, edgeByte_ecnt, edgeRestart_ecnt, edgeShift_ecnt, edgeCount]

theorem publishes_of_not_frameDone {s : State} (h : ¬ frameDone (edgeCount s)) : publishes s = false := by
  rw [publishes, beforeFrameStep_ecnt, decide_eq_false h, Bool.and_false, Bool.false_and]

theorem edgeStores_of_resync {s : State} (hp : s.pulse = 255) : edgeStores s = [pulseAddr, ecntAddr, crcAddr] := by
  have hcount := edgeCount_of_resync hp
  have hpublishes : publishes s = false := publishes_of_not_frameDone (by rw [hcount]; decide)
  have hresync : resync s.pulse := hp
  rw [edgeStores, hcount, if_pos hresync, if_neg (by decide), if_neg (by decide), hpublishes]
  rfl

theorem publishes_of_not_frameEnd {s : State} (hp : s.pulse ≠ 255) (h : s.ecnt.toNat + 1 ≠ 128) : publishes s = false :=
  publishes_of_not_frameDone (by rw [edgeCount_of_ne hp]; exact h)

theorem edgeStores_of_clock {s : State} (hp : s.pulse ≠ 255) (he : s.ecnt.toNat % 2 = 0) :
    edgeStores s = [pulseAddr, ecntAddr] := by
  have hresync : ¬ resync s.pulse := hp
  have hdata : ¬ dataEdge Config.dataParity s.ecnt := by rw [dataEdge_iff]; omega
  have hbyte : ¬ byteDone s.ecnt := by rw [byteDone_iff]; omega
  rw [edgeStores, edgeCount_of_ne hp, if_neg hresync, if_neg hdata, if_neg hbyte, publishes_of_not_frameEnd hp (by omega)]
  rfl

theorem edgeStores_of_bit {s : State} (hp : s.pulse ≠ 255) (hdata : s.ecnt.toNat % 2 = 1)
    (hbyte : (s.ecnt.toNat + 1) % 16 ≠ 0) : edgeStores s = [pulseAddr, ecntAddr, byteAddr] := by
  have hresync : ¬ resync s.pulse := hp
  have hbyteDone : ¬ byteDone s.ecnt := hbyte
  rw [edgeStores, edgeCount_of_ne hp, if_neg hresync, if_pos ((dataEdge_iff _).mpr hdata), if_neg hbyteDone,
    publishes_of_not_frameEnd hp (by omega)]
  rfl

/-- At a byte end, the frame's end with it. -/
theorem edgeStores_of_byteDone {s : State} (hp : s.pulse ≠ 255) (hbyte : (s.ecnt.toNat + 1) % 16 = 0) :
    edgeStores s =
      [pulseAddr, ecntAddr, byteAddr, crcAddr] ++ cmdStore (byteIndex s.ecnt) ++ (if publishes s then spAddrs else []) := by
  have hresync : ¬ resync s.pulse := hp
  have hbyteDone : byteDone s.ecnt := hbyte
  have hdata : dataEdge Config.dataParity s.ecnt := by rw [dataEdge_iff]; omega
  rw [edgeStores, edgeCount_of_ne hp, if_neg hresync, if_pos hdata, if_pos hbyteDone]
  rfl

theorem edgeStores_of_byteEnd {s : State} (hp : s.pulse ≠ 255) (hbyte : (s.ecnt.toNat + 1) % 16 = 0)
    (hframe : s.ecnt.toNat + 1 ≠ 128) :
    edgeStores s = [pulseAddr, ecntAddr, byteAddr, crcAddr] ++ cmdStore (byteIndex s.ecnt) := by
  rw [edgeStores_of_byteDone hp hbyte, publishes_of_not_frameEnd hp hframe, if_neg Bool.false_ne_true, List.append_nil]

theorem edgeStores_of_frameEnd {s : State} (hrun : s.run = true) (hp : s.pulse ≠ 255) (he : s.ecnt = 127) :
    edgeStores s =
      [pulseAddr, ecntAddr, byteAddr, crcAddr] ++ [cmdAddr 7] ++
        (if s.crc ^^^ byteAfterDataEdge s = 0 then spAddrs else []) := by
  have hindex : cmdStore (byteIndex s.ecnt) = [cmdAddr 7] := by rw [he]; rfl
  rw [edgeStores_of_byteDone hp (by rw [he]; rfl), hindex, publishes_of_frameEnd hp he, hrun, Bool.true_and]
  simp only [decide_eq_true_eq]

/-! ## What an edge changes, case by case -/

theorem agreeOff_decoderRegisters (s : State) (e b c : Byte) :
    AgreeOff [pulseAddr, ecntAddr, byteAddr, crcAddr] s { s with pulse := 0, ecnt := e, byte := b, crc := c } :=
  agreeOff_of_image _ (by rw [image_eq, image_eq]; rfl)

theorem agreeOff_sp (s : State) (v : Vector Byte 8) : AgreeOff spAddrs s { s with sp := v } :=
  agreeOff_of_image _ (by rw [image_eq, image_eq]; rfl)

theorem agreeOff_edgeStep {s t : State} (hrun : s.run = true) (h : EdgeStep s t) : AgreeOff (edgeStores s) s t := by
  cases h with
  | resync hp =>
    rw [edgeStores_of_resync hp]
    exact agreeOff_of_image _ (by rw [image_eq, image_eq]; rfl)
  | clock hp he =>
    rw [edgeStores_of_clock hp he]
    exact agreeOff_of_image _ (by rw [image_eq, image_eq]; rfl)
  | bit hp hdata hbyte =>
    rw [edgeStores_of_bit hp hdata hbyte]
    exact agreeOff_of_image _ (by rw [image_eq, image_eq]; rfl)
  | byteEnd hp hbyte hframe =>
    rw [edgeStores_of_byteEnd hp hbyte hframe]
    exact (agreeOff_decoderRegisters s _ _ _).trans (agreeOff_set_cmd _ _ (byteAfterDataEdge s))
  | frameEnd hp he =>
    rw [edgeStores_of_frameEnd hrun hp he]
    have hstaged := (agreeOff_decoderRegisters s 0 (byteAfterDataEdge s) 0).trans
      (agreeOff_set_cmd _ 7 (byteAfterDataEdge s))
    by_cases hvalid : s.crc ^^^ byteAfterDataEdge s = 0
    · rw [if_pos hvalid, if_pos hvalid]
      exact hstaged.trans (agreeOff_sp _ (frameAfterLastEdge s))
    · rw [if_neg hvalid, if_neg hvalid, List.append_nil]
      exact hstaged

/-! ## Every operation -/

/-- RESET leaves the reserved locations at 0, as they were. -/
theorem byteAt_of_not_implemented (s : State) {a : Nat} (h : a ∉ implementedAddrs) : byteAt s a = 0 := by
  by_cases ha : a < 48
  · have hreserved : a = 0x13 ∨ 0x2C ≤ a := by
      by_contra hnot
      refine h (List.mem_filter.mpr ⟨List.mem_range.mpr ha, ?_⟩)
      have hlt : a < 0x2C := by omega
      have hne : a ≠ 0x13 := by omega
      interval_cases a <;> simp_all [implementedBits]
    rw [byteAt, image_eq]
    obtain rfl | hend := hreserved
    · rfl
    · interval_cases a <;> rfl
  · exact byteAt_of_ge s (Nat.not_lt.mp ha)

theorem agreeOff_effectOf {i : Instr} {s : State} (hallowed : ¬ (i = .init ∧ s.run = true)) :
    AgreeOff (storeAddrs i s) s (effectOf i s) := by
  have gate : ∀ {as : List Nat} {f : State → State}, (s.run = true → AgreeOff as s (f s)) →
      AgreeOff (if s.run then as else []) s (if s.run then f s else s) := by
    intro as f hf
    cases hrun : s.run
    · exact .refl _ s
    · exact hf hrun
  cases i with
  | idle => exact .refl _ s
  | reset =>
    intro a ha
    rw [byteAt_of_not_implemented _ ha, byteAt_of_not_implemented _ ha]
  | init =>
    have hrun : ¬ s.run = true := fun h => hallowed ⟨rfl, h⟩
    rw [storeAddrs, if_neg hrun]
    exact agreeOff_configure s
  | clk => exact gate fun _ => agreeOff_clkAction s
  | tick => exact gate fun _ => agreeOff_tickAction s
  | edge => exact gate fun hrun => agreeOff_edgeStep hrun (edgeStep_edgeAction s)
  | adcdone r =>
    rw [storeAddrs, effectOf]
    cases hrun : s.run
    · exact .refl _ s
    · exact agreeOff_sampleAction r s
  | lstep => exact gate fun _ => agreeOff_loopAction s

/-- Settles O55: each effect is a list of bytes put into the data space at the addresses the table lists. -/
theorem operationsStoreOnlyWhereListed : Obligations.OperationsStoreOnlyWhereListed := by
  intro i s t a hexec ha
  obtain ⟨hallowed, rfl⟩ := (exec_next_iff i s t).mp hexec
  exact agreeOff_effectOf hallowed a ha

end Sys2Proof.Machine
end

section
/-! LAWS. The listed reads (20_memory.md R72): what two states must agree on for an operation to store the same bytes in both. -/

namespace Sys2Proof.Machine

/-! ## A register from its byte -/

theorem run_eq_of_byte {s₁ s₂ : State} (h : byteAt s₁ ctrlAddr = byteAt s₂ ctrlAddr) : s₁.run = s₂.run := by
  have hbit : ∀ b : Bool, ((0 : BitVec 7) ++ BitVec.ofBool b).getLsbD 0 = b := by decide
  calc s₁.run = (byteAt s₁ ctrlAddr).getLsbD 0 := (hbit s₁.run).symm
    _ = (byteAt s₂ ctrlAddr).getLsbD 0 := by rw [h]
    _ = s₂.run := hbit s₂.run

theorem lph_eq_of_byte {s₁ s₂ : State} (h : byteAt s₁ lphAddr = byteAt s₂ lphAddr) : s₁.lph = s₂.lph := by
  have hphase : ∀ p : Phase, phaseOfNumber ((0 : BitVec 4) ++ BitVec.ofNat 4 (phaseNumber p)).toNat = some p := by
    intro p
    cases p <;> rfl
  have hsome : some s₁.lph = some s₂.lph := by
    calc some s₁.lph = phaseOfNumber (byteAt s₁ lphAddr).toNat := (hphase s₁.lph).symm
      _ = phaseOfNumber (byteAt s₂ lphAddr).toNat := by rw [h]
      _ = some s₂.lph := hphase s₂.lph
  exact Option.some.inj hsome

theorem sampler_eq_of_byte {s₁ s₂ : State} (h : byteAt s₁ sctlAddr = byteAt s₂ sctlAddr) :
    s₁.conv = s₂.conv ∧ s₁.ch = s₂.ch := by
  have hfields : ∀ (conv conv' : Bool) (ch ch' : Fin 4),
      (BitVec.ofBool conv ++ (0 : BitVec 5)) ++ BitVec.ofNat 2 ch.val =
        (BitVec.ofBool conv' ++ (0 : BitVec 5)) ++ BitVec.ofNat 2 ch'.val → conv = conv' ∧ ch = ch' := by decide
  exact hfields _ _ _ _ h

theorem word_eq_of_halves {w w' : Word} (hhi : hiByte w = hiByte w') (hlo : loByte w = loByte w') : w = w' := by
  rw [← pair_hiByte_loByte w, hhi, hlo, pair_hiByte_loByte]

theorem smp_eq_of_byte {s₁ s₂ : State} (i : Fin 4) (h : byteAt s₁ (smpAddr i) = byteAt s₂ (smpAddr i)) :
    s₁.smp[i] = s₂.smp[i] := by
  rwa [byteAt_smp, byteAt_smp] at h

theorem sp_eq_of_byte {s₁ s₂ : State} (i : Fin 8) (h : byteAt s₁ (spAddr i) = byteAt s₂ (spAddr i)) : s₁.sp[i] = s₂.sp[i] := by
  rwa [byteAt_sp, byteAt_sp] at h

theorem cmd_eq_of_bytes {s₁ s₂ : State} (h : ∀ a ∈ cmdAddrs, byteAt s₁ a = byteAt s₂ a) : s₁.cmd = s₂.cmd := by
  refine Vector.ext fun i hi => ?_
  have hmem : cmdAddr i ∈ cmdAddrs := List.mem_map_of_mem (List.mem_range.mpr hi)
  have hbyte := h (cmdAddr i) hmem
  rwa [byteAt_cmd s₁ ⟨i, hi⟩, byteAt_cmd s₂ ⟨i, hi⟩] at hbyte

/-! ## Each operation -/

/-- Two states in which an operation stores to the same addresses, and the same bytes there. -/
def SameStores (i : Instr) (s₁ s₂ : State) : Prop :=
  storeAddrs i s₁ = storeAddrs i s₂ ∧ ∀ a ∈ storeAddrs i s₁, byteAt (effectOf i s₁) a = byteAt (effectOf i s₂) a

/-- Behind the RUN gate there is nothing to show of a block that does not run. -/
theorem sameStores_of_gate {i : Instr} {s₁ s₂ : State} {as₁ as₂ : List Nat} {f : State → State} (hrun : s₁.run = s₂.run)
    (h₁ : storeAddrs i s₁ = if s₁.run then as₁ else []) (h₂ : storeAddrs i s₂ = if s₂.run then as₂ else [])
    (hf : ∀ s, effectOf i s = if s.run then f s else s)
    (h : s₂.run = true → as₁ = as₂ ∧ ∀ a ∈ as₁, byteAt (f s₁) a = byteAt (f s₂) a) : SameStores i s₁ s₂ := by
  rw [SameStores, h₁, h₂, hf, hf, hrun]
  by_cases hon : s₂.run = true
  · simpa only [if_pos hon] using h hon
  · simp only [if_neg hon, List.not_mem_nil, false_implies, implies_true, and_self]

theorem timerAddrs_eq : timerAddrs = [0x02, 0x03, 0x04, 0x05, 0x06, 0x07, 0x08, 0x09] := rfl

theorem counterAddrs_eq : counterAddrs = [0x06, 0x07, 0x08, 0x09] := rfl

theorem pwmAddrs_eq :
    pwmAddrs = [0x02, 0x03, 0x04, 0x05, 0x06, 0x07, 0x08, 0x09, 0x0A, 0x0B, 0x0C, 0x0D] := rfl

section
variable {s₁ s₂ : State}

theorem sameStores_init (h₁ : ¬ s₁.run = true) (h₂ : ¬ s₂.run = true) : SameStores .init s₁ s₂ := by
  rw [SameStores, storeAddrs, storeAddrs, if_neg h₁, if_neg h₂, pwmAddrs_eq]
  refine ⟨rfl, ?_⟩
  simp only [List.cons_append, List.nil_append, List.forall_mem_cons]
  exact ⟨rfl, rfl, rfl, rfl, rfl, rfl, rfl, rfl, rfl, rfl, rfl, rfl, rfl, rfl, rfl, nofun⟩

theorem sameStores_tick (h : ∀ a ∈ readAddrs .tick s₁, byteAt s₁ a = byteAt s₂ a) : SameStores .tick s₁ s₂ := by
  obtain ⟨hctrl, hpulse⟩ : byteAt s₁ ctrlAddr = byteAt s₂ ctrlAddr ∧ s₁.pulse = s₂.pulse := by
    simp only [readAddrs, List.forall_mem_cons] at h
    exact ⟨h.1, h.2.1⟩
  refine sameStores_of_gate (run_eq_of_byte hctrl) rfl rfl (fun _ => rfl) fun _ => ⟨rfl, ?_⟩
  rw [List.forall_mem_singleton]
  exact congrArg satInc hpulse

/-- The counters go on from what they were, against the same periods; PULSE is read where it is written. -/
theorem clkAction_bytes (hper1 : s₁.per1 = s₂.per1) (hper2 : s₁.per2 = s₂.per2) (hcnt1 : s₁.cnt1 = s₂.cnt1)
    (hcnt2 : s₁.cnt2 = s₂.cnt2) (hpulse : wraps s₁.per1 s₁.cnt1 → s₁.pulse = s₂.pulse) :
    ∀ a ∈ counterAddrs ++ (if wraps s₁.per1 s₁.cnt1 then [pulseAddr] else []),
      byteAt (clkAction s₁) a = byteAt (clkAction s₂) a := by
  have hcnt1' : (clkAction s₁).cnt1 = (clkAction s₂).cnt1 := by rw [clkAction_cnt1, clkAction_cnt1, hper1, hcnt1]
  have hcnt2' : (clkAction s₁).cnt2 = (clkAction s₂).cnt2 := by rw [clkAction_cnt2, clkAction_cnt2, hper2, hcnt2]
  rw [List.forall_mem_append, counterAddrs_eq]
  constructor
  · simp only [List.forall_mem_cons]
    exact ⟨congrArg hiByte hcnt1', congrArg loByte hcnt1', congrArg hiByte hcnt2', congrArg loByte hcnt2', nofun⟩
  · split
    next hwraps =>
      rw [List.forall_mem_singleton, clkAction_of_wraps hwraps, clkAction_of_wraps (by rwa [← hper1, ← hcnt1])]
      exact congrArg satInc (hpulse hwraps)
    next => exact nofun

theorem sameStores_clk (h : ∀ a ∈ readAddrs .clk s₁, byteAt s₁ a = byteAt s₂ a) : SameStores .clk s₁ s₂ := by
  simp only [readAddrs, timerAddrs_eq, List.cons_append, List.nil_append, List.forall_mem_cons] at h
  obtain ⟨hctrl, h2, h3, h4, h5, h6, h7, h8, h9, hrest⟩ := h
  have hper1 : s₁.per1 = s₂.per1 := word_eq_of_halves h2 h3
  have hper2 : s₁.per2 = s₂.per2 := word_eq_of_halves h4 h5
  have hcnt1 : s₁.cnt1 = s₂.cnt1 := word_eq_of_halves h6 h7
  have hcnt2 : s₁.cnt2 = s₂.cnt2 := word_eq_of_halves h8 h9
  refine sameStores_of_gate (run_eq_of_byte hctrl) rfl rfl (fun _ => rfl) fun _ => ⟨by rw [hper1, hcnt1], ?_⟩
  exact clkAction_bytes hper1 hper2 hcnt1 hcnt2 fun hwraps => hrest pulseAddr (by rw [if_pos hwraps]; exact .head _)

theorem sameStores_adcdone (r : Byte) (h : ∀ a ∈ readAddrs (.adcdone r) s₁, byteAt s₁ a = byteAt s₂ a) :
    SameStores (.adcdone r) s₁ s₂ := by
  simp only [readAddrs, List.forall_mem_cons] at h
  obtain ⟨hctrl, hsctl, -⟩ := h
  obtain ⟨hconv, hch⟩ := sampler_eq_of_byte hsctl
  have hgate : ∀ s : State, storeAddrs (.adcdone r) s =
      if s.run then (if s.conv then [smpAddr s.ch.val, sctlAddr] else []) else [] := by
    intro s
    rw [storeAddrs]
    cases s.run <;> rfl
  refine sameStores_of_gate (run_eq_of_byte hctrl) (hgate s₁) (hgate s₂) (fun _ => rfl) fun _ => ⟨by rw [hconv, hch], ?_⟩
  by_cases hon : s₁.conv = true
  · rw [if_pos hon, sampleAction_eq_storeSample hon, sampleAction_eq_storeSample (hconv.symm.trans hon)]
    have hslot : ∀ s : State, byteAt (storeSample r s) (smpAddr s.ch) = r := fun s =>
      (byteAt_smp _ _).trans ((getElem_set_sample s.smp s.ch s.ch r).trans (if_pos rfl))
    have hctl : byteAt (storeSample r s₁) sctlAddr = byteAt (storeSample r s₂) sctlAddr :=
      congrArg (fun ch : Fin 4 => (BitVec.ofBool true ++ (0 : BitVec 5)) ++ BitVec.ofNat 2 (ch + 1).val) hch
    simp only [List.forall_mem_cons]
    exact ⟨(hslot s₁).trans (hch ▸ (hslot s₂).symm), hctl, nofun⟩
  · rw [if_neg hon]
    exact nofun

/-- A phase stores a byte it reads, or its duty adjusted by the latches it reads. -/
theorem phaseAction_bytes {p : Phase} (h : ∀ a ∈ phaseReads p, byteAt s₁ a = byteAt s₂ a) :
    ∀ a ∈ phaseStores p, byteAt (phaseAction p s₁) a = byteAt (phaseAction p s₂) a := by
  have hlatches {as : List Nat} (hl : ∀ a ∈ as ++ [aImAddr, aIlAddr, aVmAddr, aVlAddr], byteAt s₁ a = byteAt s₂ a) :
      s₁.aIm = s₂.aIm ∧ s₁.aIl = s₂.aIl ∧ s₁.aVm = s₂.aVm ∧ s₁.aVl = s₂.aVl := by
    simp only [List.forall_mem_append, List.forall_mem_cons, byteAt_aIm, byteAt_aIl, byteAt_aVm, byteAt_aVl] at hl
    obtain ⟨-, hIm, hIl, hVm, hVl, -⟩ := hl
    exact ⟨hIm, hIl, hVm, hVl⟩
  cases p with
  | wait => exact nofun
  | adj1 =>
    obtain ⟨hIm, hIl, hVm, hVl⟩ := hlatches h
    have hduty : s₁.duty1 = s₂.duty1 := word_eq_of_halves (h (dutyAddr 0) (.head _)) (h (dutyAddr 0 + 1) (.tail _ (.head _)))
    have hduty' : (adjustDuty1 s₁).duty1 = (adjustDuty1 s₂).duty1 := by
      rw [adjustDuty1_duty1, adjustDuty1_duty1, hduty, hIm, hIl, hVm, hVl]
    simp only [phaseStores, pairAddrs, List.forall_mem_cons]
    exact ⟨congrArg hiByte hduty', congrArg loByte hduty', nofun⟩
  | adj2 =>
    obtain ⟨hIm, hIl, hVm, hVl⟩ := hlatches h
    have hduty : s₁.duty2 = s₂.duty2 := word_eq_of_halves (h (dutyAddr 1) (.head _)) (h (dutyAddr 1 + 1) (.tail _ (.head _)))
    have hduty' : (adjustDuty2 s₁).duty2 = (adjustDuty2 s₂).duty2 := by
      rw [adjustDuty2_duty2, adjustDuty2_duty2, hduty, hIm, hIl, hVm, hVl]
    simp only [phaseStores, pairAddrs, List.forall_mem_cons]
    exact ⟨congrArg hiByte hduty', congrArg loByte hduty', nofun⟩
  | ldIm1 =>
    rw [phaseStores, List.forall_mem_singleton, byteAt_aIm, byteAt_aIm]
    exact smp_eq_of_byte 2 (h _ (.head _))
  | ldIl1 =>
    rw [phaseStores, List.forall_mem_singleton, byteAt_aIl, byteAt_aIl]
    exact sp_eq_of_byte 2 (h _ (.head _))
  | ldVm1 =>
    rw [phaseStores, List.forall_mem_singleton, byteAt_aVm, byteAt_aVm]
    exact smp_eq_of_byte 0 (h _ (.head _))
  | ldVl1 =>
    rw [phaseStores, List.forall_mem_singleton, byteAt_aVl, byteAt_aVl]
    exact sp_eq_of_byte 0 (h _ (.head _))
  | ldIm2 =>
    rw [phaseStores, List.forall_mem_singleton, byteAt_aIm, byteAt_aIm]
    exact smp_eq_of_byte 3 (h _ (.head _))
  | ldIl2 =>
    rw [phaseStores, List.forall_mem_singleton, byteAt_aIl, byteAt_aIl]
    exact sp_eq_of_byte 3 (h _ (.head _))
  | ldVm2 =>
    rw [phaseStores, List.forall_mem_singleton, byteAt_aVm, byteAt_aVm]
    exact smp_eq_of_byte 1 (h _ (.head _))
  | ldVl2 =>
    rw [phaseStores, List.forall_mem_singleton, byteAt_aVl, byteAt_aVl]
    exact sp_eq_of_byte 1 (h _ (.head _))

theorem sameStores_lstep (h : ∀ a ∈ readAddrs .lstep s₁, byteAt s₁ a = byteAt s₂ a) : SameStores .lstep s₁ s₂ := by
  simp only [readAddrs, List.cons_append, List.nil_append, List.forall_mem_cons] at h
  obtain ⟨hctrl, hlphByte, hreads⟩ := h
  have hlph := lph_eq_of_byte hlphByte
  have hnot : ∀ p, lphAddr ∉ phaseStores p := by
    intro p
    cases p <;> decide
  refine sameStores_of_gate (run_eq_of_byte hctrl) rfl rfl (fun _ => rfl) fun _ => ⟨by rw [hlph], ?_⟩
  rw [List.forall_mem_cons]
  constructor
  · exact congrArg (fun p => (0 : BitVec 4) ++ BitVec.ofNat 4 (phaseNumber (nextPhase p)))
      ((phaseAction_lph _ _).trans (hlph.trans (phaseAction_lph _ _).symm))
  · intro a ha
    have hkeeps : ∀ s, byteAt (loopAction s) a = byteAt (phaseAction s.lph s) a := fun s =>
      agreeOff_advancePhase _ a fun hmem => hnot s₁.lph (List.mem_singleton.mp hmem ▸ ha)
    rw [hkeeps, hkeeps, ← hlph]
    exact phaseAction_bytes hreads a ha

/-! ## An edge -/

/-- The byte staged at an index CMD has is found at the address it was listed for. -/
theorem bytes_cmdStore {t : State} {v : Vector Byte 8} {k : Nat} {b : Byte} (h : t.cmd = v.setIfInBounds k b) :
    ∀ a ∈ cmdStore k, byteAt t a = b := by
  intro a ha
  by_cases hk : k < 8
  · rw [cmdStore, if_pos (by exact hk), List.mem_singleton] at ha
    have hstaged : t.cmd[k] = b := by rw [h]; exact Vector.getElem_setIfInBounds_self hk
    rw [ha]
    exact (byteAt_cmd t ⟨k, hk⟩).trans hstaged
  · rw [cmdStore, if_neg (by exact hk)] at ha
    cases ha

theorem byteAt_cmd_last (s : State) : byteAt s (cmdAddr 7) = s.cmd[7] := byteAt_cmd s 7

theorem bytes_sp_congr (h : s₁.sp = s₂.sp) : ∀ a ∈ spAddrs, byteAt s₁ a = byteAt s₂ a := by
  intro a ha
  obtain ⟨i, hi, rfl⟩ := List.mem_map.mp ha
  have hlt : i < 8 := List.mem_range.mp hi
  rw [byteAt_sp s₁ ⟨i, hlt⟩, byteAt_sp s₂ ⟨i, hlt⟩, h]

/-- An edge stores what PULSE, ECNT, BYTE and CRC give, and in a publish the staged frame. -/
theorem edge_sameStores {t₁ : State} (hrun₁ : s₁.run = true) (hrun₂ : s₂.run = true) (hpulse : s₁.pulse = s₂.pulse)
    (hecnt : s₁.ecnt = s₂.ecnt) (hbyte : s₁.byte = s₂.byte) (hcrc : s₁.crc = s₂.crc)
    (hcmd : publishes s₁ = true → s₁.cmd = s₂.cmd) (hstep : EdgeStep s₁ t₁) :
    edgeStores s₁ = edgeStores s₂ ∧ ∀ a ∈ edgeStores s₁, byteAt t₁ a = byteAt (edgeAction s₂) a := by
  have hshift : byteAfterDataEdge s₁ = byteAfterDataEdge s₂ := by rw [byteAfterDataEdge, byteAfterDataEdge, hbyte, hpulse]
  have hnext : BitVec.ofNat 8 (s₁.ecnt.toNat + 1) = BitVec.ofNat 8 (s₂.ecnt.toNat + 1) := by rw [hecnt]
  cases hstep with
  | resync hp =>
    have hp₂ := hpulse ▸ hp
    rw [edgeStores_of_resync hp, edgeStores_of_resync hp₂, edgeAction_of_resync hp₂]
    refine ⟨rfl, ?_⟩
    simp only [List.forall_mem_cons]
    exact ⟨rfl, rfl, rfl, nofun⟩
  | clock hp he =>
    have hp₂ := hpulse ▸ hp
    have he₂ := hecnt ▸ he
    rw [edgeStores_of_clock hp he, edgeStores_of_clock hp₂ he₂, edgeAction_of_clockEdge hp₂ he₂]
    refine ⟨rfl, ?_⟩
    simp only [List.forall_mem_cons]
    exact ⟨rfl, hnext, nofun⟩
  | bit hp hdata hdone =>
    have hp₂ := hpulse ▸ hp
    have hdata₂ := hecnt ▸ hdata
    have hdone₂ := hecnt ▸ hdone
    rw [edgeStores_of_bit hp hdata hdone, edgeStores_of_bit hp₂ hdata₂ hdone₂, edgeAction_of_bit hp₂ hdata₂ hdone₂]
    refine ⟨rfl, ?_⟩
    simp only [List.forall_mem_cons]
    exact ⟨rfl, hnext, hshift, nofun⟩
  | byteEnd hp hdone hframe =>
    have hp₂ := hpulse ▸ hp
    have hdone₂ := hecnt ▸ hdone
    have hframe₂ := hecnt ▸ hframe
    have hindex : byteIndex s₁.ecnt = byteIndex s₂.ecnt := by rw [hecnt]
    rw [edgeStores_of_byteEnd hp hdone hframe, edgeStores_of_byteEnd hp₂ hdone₂ hframe₂,
      edgeAction_of_byteEnd hp₂ hdone₂ hframe₂, ← hindex]
    refine ⟨rfl, ?_⟩
    simp only [List.forall_mem_append, List.forall_mem_cons]
    refine ⟨⟨rfl, hnext, hshift, congrArg₂ (· ^^^ ·) hcrc hshift, nofun⟩, fun a ha => ?_⟩
    rw [bytes_cmdStore rfl a ha, bytes_cmdStore rfl a ha, hshift]
  | frameEnd hp he =>
    have hp₂ := hpulse ▸ hp
    have he₂ := hecnt ▸ he
    have hsum : s₁.crc ^^^ byteAfterDataEdge s₁ = s₂.crc ^^^ byteAfterDataEdge s₂ := by rw [hcrc, hshift]
    rw [edgeStores_of_frameEnd hrun₁ hp he, edgeStores_of_frameEnd hrun₂ hp₂ he₂, edgeAction_of_frameEnd hp₂ he₂, ← hsum]
    refine ⟨rfl, ?_⟩
    simp only [List.forall_mem_append, List.forall_mem_cons]
    refine ⟨⟨⟨rfl, rfl, hshift, rfl, nofun⟩, ?_, nofun⟩, ?_⟩
    · rw [byteAt_cmd_last, byteAt_cmd_last]
      exact (frameAfterLastEdge_last s₁).trans (hshift.trans (frameAfterLastEdge_last s₂).symm)
    · by_cases hvalid : s₁.crc ^^^ byteAfterDataEdge s₁ = 0
      · have hframe := hcmd (by rw [publishes_of_frameEnd hp he, hrun₁, decide_eq_true hvalid, Bool.and_self])
        rw [if_pos hvalid, if_pos hvalid, if_pos hvalid]
        refine bytes_sp_congr ?_
        exact congrArg₂ (fun v b => Vector.setIfInBounds v 7 b) hframe hshift
      · rw [if_neg hvalid]
        exact nofun

theorem sameStores_edge (h : ∀ a ∈ readAddrs .edge s₁, byteAt s₁ a = byteAt s₂ a) : SameStores .edge s₁ s₂ := by
  simp only [readAddrs, List.cons_append, List.nil_append, List.forall_mem_cons] at h
  obtain ⟨hctrl, hpulse, hecnt, hbyte, hcrc, hrest⟩ := h
  have hrun := run_eq_of_byte hctrl
  refine sameStores_of_gate hrun rfl rfl (fun _ => rfl) fun hrun₂ => ?_
  exact edge_sameStores (hrun.trans hrun₂) hrun₂ hpulse hecnt hbyte hcrc
    (fun hpublishes => cmd_eq_of_bytes (by rwa [if_pos hpublishes] at hrest)) (edgeStep_edgeAction s₁)

end

/-- Settles O56: each effect puts bytes that are functions of the listed reads at addresses that are. -/
theorem effectsDependOnlyOnListedReads : Obligations.EffectsDependOnlyOnListedReads := by
  intro i s₁ s₂ t₁ t₂ h₁ h₂ hreads
  obtain ⟨hallowed₁, rfl⟩ := (exec_next_iff i s₁ t₁).mp h₁
  obtain ⟨hallowed₂, rfl⟩ := (exec_next_iff i s₂ t₂).mp h₂
  cases i with
  | idle => exact ⟨rfl, nofun⟩
  | reset => exact ⟨rfl, fun a _ => byteAt_congr rfl a⟩
  | init => exact sameStores_init (fun h => hallowed₁ ⟨rfl, h⟩) (fun h => hallowed₂ ⟨rfl, h⟩)
  | clk => exact sameStores_clk hreads
  | tick => exact sameStores_tick hreads
  | edge => exact sameStores_edge hreads
  | adcdone r => exact sameStores_adcdone r hreads
  | lstep => exact sameStores_lstep hreads

end Sys2Proof.Machine
end

section
/-! LAWS. Ticks and edges on the line (30_encoding.md section A, 44_frame_decoder.md): an interval, a bit cell, the eight cells of a byte and the
eight bytes of a frame, up to the publish. -/

namespace Sys2Proof.Machine

/-! ## An interval -/

/-- The state after n ticks (R91, R185). -/
def afterTicks (n : Nat) (s : State) : State := { s with pulse := BitVec.ofNat 8 (min 255 (s.pulse.toNat + n)) }

theorem afterTicks_pulse_toNat (n : Nat) (s : State) : (afterTicks n s).pulse.toNat = min 255 (s.pulse.toNat + n) := by
  rw [afterTicks, BitVec.toNat_ofNat, Nat.mod_eq_of_lt (by omega)]

theorem tickAction_afterTicks (n : Nat) (s : State) : tickAction (afterTicks n s) = afterTicks (n + 1) s := by
  have hpulse : satInc (afterTicks n s).pulse = (afterTicks (n + 1) s).pulse := by
    apply BitVec.eq_of_toNat_eq
    rw [satInc_toNat, afterTicks_pulse_toNat, afterTicks_pulse_toNat]
    omega
  exact congrArg (fun p => { s with pulse := p }) hpulse

theorem afterTicks_zero (s : State) : afterTicks 0 s = s := by
  have hpulse : (afterTicks 0 s).pulse = s.pulse := by
    apply BitVec.eq_of_toNat_eq
    have hlt := s.pulse.isLt
    rw [afterTicks_pulse_toNat]
    omega
  exact congrArg (fun p => { s with pulse := p }) hpulse

theorem tickAction_iterate (n : Nat) (s : State) : tickAction^[n] s = afterTicks n s := by
  induction n with
  | zero => exact (afterTicks_zero s).symm
  | succ n ih => rw [Function.iterate_succ_apply', ih, tickAction_afterTicks]

/-- EDGEAFTER n (R107). -/
theorem runOps_edgeAfter (n : Nat) {s : State} (hrun : s.run = true) :
    runOps (edgeAfter n) s = .next (edgeAction (afterTicks n s)) := by
  have hticks := runOps_replicate (fun _ => exec_tick_of_run) tickAction_run n hrun
  rw [tickAction_iterate] at hticks
  rw [edgeAfter, runOps_append_of_next hticks, runOps_cons_of_next (exec_edge_of_run (by exact hrun)), runOps_nil]

section
variable {s : State} {n : Nat} (hpulse : s.pulse = 0) (hn : n < 255)
include hpulse hn

/-- After a live interval that began with an edge, PULSE is its length. -/
theorem afterTicks_pulse_of_live : (afterTicks n s).pulse.toNat = n := by
  have hzero : s.pulse.toNat = 0 := congrArg BitVec.toNat hpulse
  rw [afterTicks_pulse_toNat]
  omega

theorem afterTicks_pulse_ne_of_live : (afterTicks n s).pulse ≠ 255 := fun h => by
  have hlen := afterTicks_pulse_of_live hpulse hn
  rw [h] at hlen
  exact absurd hlen.symm hn.ne

theorem byteAfterDataEdge_afterTicks : byteAfterDataEdge (afterTicks n s) = shiftIn s.byte (bitOfInterval n) := by
  rw [byteAfterDataEdge, bitOf, afterTicks_pulse_of_live hpulse hn]
  rfl

/-- The opening edge of a cell (R92). -/
theorem edgeAction_afterTicks_opening (he : s.ecnt.toNat % 2 = 0) :
    edgeAction (afterTicks n s) = { s with ecnt := BitVec.ofNat 8 (s.ecnt.toNat + 1) } := by
  rw [edgeAction_of_clockEdge (afterTicks_pulse_ne_of_live hpulse hn) (by exact he)]
  exact congrArg (fun p => { s with pulse := p, ecnt := BitVec.ofNat 8 (s.ecnt.toNat + 1) }) hpulse.symm

/-- The closing edge of a cell that is not the last of its byte. -/
theorem edgeAction_afterTicks_bit (he : s.ecnt.toNat % 2 = 1) (hbyte : (s.ecnt.toNat + 1) % 16 ≠ 0) :
    edgeAction (afterTicks n s) =
      { s with byte := shiftIn s.byte (bitOfInterval n), ecnt := BitVec.ofNat 8 (s.ecnt.toNat + 1) } := by
  rw [edgeAction_of_bit (afterTicks_pulse_ne_of_live hpulse hn) (by exact he) (by exact hbyte),
    byteAfterDataEdge_afterTicks hpulse hn]
  exact congrArg (fun p => { s with pulse := p, byte := shiftIn s.byte (bitOfInterval n), ecnt := BitVec.ofNat 8 (s.ecnt.toNat + 1) })
    hpulse.symm

end

/-! ## Cells -/

theorem runOps_cellOps (c : WireCell) {s : State} (hrun : s.run = true) :
    runOps (cellOps c) s = .next (edgeAction (afterTicks c.data (edgeAction (afterTicks c.gap s)))) := by
  rw [cellOps, runOps_append_of_next (runOps_edgeAfter c.gap hrun)]
  exact runOps_edgeAfter c.data ((edgeAction_run _).trans hrun)

theorem cellsOps_cons (c : WireCell) (cells : List WireCell) : cellsOps (c :: cells) = cellOps c ++ cellsOps cells :=
  List.flatMap_cons

theorem cellsOps_append (xs ys : List WireCell) : cellsOps (xs ++ ys) = cellsOps xs ++ cellsOps ys := List.flatMap_append

theorem cellLive_iff (c : WireCell) : cellLive c = true ↔ c.gap < 255 ∧ c.data < 255 := by
  rw [cellLive, Bool.and_eq_true, decide_eq_true_iff, decide_eq_true_iff]
  rfl

/-- The decoder with more bits of a byte shifted in. -/
def withBits (s : State) (bits : List Bool) : State :=
  { s with byte := bits.foldl shiftIn s.byte, ecnt := BitVec.ofNat 8 (s.ecnt.toNat + 2 * bits.length) }

theorem withBits_nil (s : State) : withBits s [] = s := by
  rw [withBits, List.length_nil, Nat.mul_zero, Nat.add_zero, BitVec.ofNat_toNat, BitVec.setWidth_eq]
  rfl

theorem withBits_ecnt_toNat {s : State} {bits : List Bool} (h : s.ecnt.toNat + 2 * bits.length < 256) :
    (withBits s bits).ecnt.toNat = s.ecnt.toNat + 2 * bits.length := by
  rw [withBits, BitVec.toNat_ofNat, Nat.mod_eq_of_lt h]

theorem withBits_cons {s : State} {b : Bool} {bits : List Bool} (h : s.ecnt.toNat + 2 < 256) :
    withBits (withBits s [b]) bits = withBits s (b :: bits) := by
  have hcount : (withBits s [b]).ecnt.toNat + 2 * bits.length = s.ecnt.toNat + 2 * (b :: bits).length := by
    rw [withBits_ecnt_toNat (by exact h), List.length_cons, List.length_cons, List.length_nil]
    omega
  exact congrArg (fun n => { s with byte := bits.foldl shiftIn (shiftIn s.byte b), ecnt := BitVec.ofNat 8 n }) hcount

/-- A live cell inside a byte shifts in its bit (R92, R93, R200). -/
theorem runOps_cellOps_inside {s : State} {c : WireCell} (hrun : s.run = true) (hpulse : s.pulse = 0)
    (he : s.ecnt.toNat % 2 = 0) (hbyte : s.ecnt.toNat % 16 ≠ 14) (hlt : s.ecnt.toNat < 254) (hlive : cellLive c = true) :
    runOps (cellOps c) s = .next (withBits s [bitOfInterval c.data]) := by
  obtain ⟨hgap, hdata⟩ := (cellLive_iff c).mp hlive
  have hcount : (BitVec.ofNat 8 (s.ecnt.toNat + 1)).toNat = s.ecnt.toNat + 1 := by
    rw [BitVec.toNat_ofNat, Nat.mod_eq_of_lt (by omega)]
  rw [runOps_cellOps c hrun, edgeAction_afterTicks_opening hpulse hgap he,
    edgeAction_afterTicks_bit (by exact hpulse) hdata (by dsimp only; omega) (by dsimp only; omega)]
  refine congrArg Host.Outcome.next ?_
  exact congrArg (fun n => { s with byte := shiftIn s.byte (bitOfInterval c.data), ecnt := BitVec.ofNat 8 n })
    (congrArg (· + 1) hcount)

/-- Cells that stay inside a byte. -/
theorem runOps_cellsOps_inside (cells : List WireCell) {s : State} (hrun : s.run = true) (hpulse : s.pulse = 0)
    (he : s.ecnt.toNat % 2 = 0) (hinside : s.ecnt.toNat % 16 + 2 * cells.length < 16) (hlt : s.ecnt.toNat < 128)
    (hlive : ∀ c ∈ cells, cellLive c = true) :
    runOps (cellsOps cells) s = .next (withBits s (bitsOfCells cells)) := by
  induction cells generalizing s with
  | nil => exact congrArg Host.Outcome.next (withBits_nil s).symm
  | cons c cells ih =>
    obtain ⟨hc, hcells⟩ := List.forall_mem_cons.mp hlive
    rw [List.length_cons] at hinside
    have hcell := runOps_cellOps_inside hrun hpulse he (by omega) (by omega) hc
    have hcount : (withBits s [bitOfInterval c.data]).ecnt.toNat = s.ecnt.toNat + 2 := withBits_ecnt_toNat (by simp; omega)
    rw [cellsOps_cons, runOps_append_of_next hcell, ih (by exact hrun) (by exact hpulse) (by omega) (by omega) (by omega) hcells,
      withBits_cons (by omega)]
    rfl

/-! ## The eight cells of a byte -/

theorem foldl_bits_eq (bits : List Bool) (n : Nat) :
    bits.foldl (fun n b => 2 * n + b.toNat) n = n * 2 ^ bits.length + bits.foldl (fun n b => 2 * n + b.toNat) 0 := by
  induction bits generalizing n with
  | nil => rw [List.foldl_nil, List.foldl_nil, List.length_nil, Nat.pow_zero, Nat.mul_one, Nat.add_zero]
  | cons b bits ih =>
    rw [List.foldl_cons, List.foldl_cons, ih, ih (2 * 0 + b.toNat), List.length_cons, Nat.pow_succ]
    ring

theorem foldl_shiftIn_toNat (bits : List Bool) (acc : Byte) :
    (bits.foldl shiftIn acc).toNat = bits.foldl (fun n b => 2 * n + b.toNat) acc.toNat % 256 := by
  induction bits generalizing acc with
  | nil => exact (Nat.mod_eq_of_lt acc.isLt).symm
  | cons b bits ih =>
    rw [List.foldl_cons, List.foldl_cons, ih, shiftIn_toNat, foldl_bits_eq, foldl_bits_eq bits (2 * acc.toNat + b.toNat),
      Nat.add_mod, Nat.mod_mul_mod, ← Nat.add_mod]

/-- Eight shifts leave nothing of what BYTE held (R94, R200). -/
theorem foldl_shiftIn_eight {bits : List Bool} (h : bits.length = 8) (acc : Byte) :
    bits.foldl shiftIn acc = byteOfBits bits := by
  apply BitVec.eq_of_toNat_eq
  rw [foldl_shiftIn_toNat, foldl_bits_eq, h, byteOfBits, BitVec.toNat_ofNat]
  omega

theorem bitsOfCells_length (cells : List WireCell) : (bitsOfCells cells).length = cells.length := List.length_map _

/-- Where the last edge of a byte finds the decoder: the eighth bit not yet shifted in, nothing staged. -/
structure BeforeByteEnd (s : State) (k : Nat) (v : Byte) (w : State) : Prop where
  frame : w = { s with pulse := w.pulse, ecnt := w.ecnt, byte := w.byte }
  pulse_ne : w.pulse ≠ 255
  ecnt_eq : w.ecnt.toNat = 16 * k + 15
  byte_eq : byteAfterDataEdge w = v

/-- Eight live cells from the beginning of byte k lead to the byte's last edge. -/
theorem runOps_byteCells {s : State} {cells : List WireCell} {k : Nat} (hrun : s.run = true) (hpulse : s.pulse = 0)
    (hk : k < 8) (he : s.ecnt.toNat = 16 * k) (hlength : cells.length = 8) (hlive : ∀ c ∈ cells, cellLive c = true) :
    ∃ w, runOps (cellsOps cells) s = .next (edgeAction w) ∧ BeforeByteEnd s k (byteOfBits (bitsOfCells cells)) w := by
  obtain ⟨first, last, rfl⟩ : ∃ first last, cells = first ++ [last] :=
    ⟨cells.dropLast, cells.getLast (by rintro rfl; cases hlength), (List.dropLast_append_getLast _).symm⟩
  rw [List.length_append, List.length_singleton] at hlength
  obtain ⟨hfirst, hlast⟩ := List.forall_mem_append.mp hlive
  obtain ⟨hgap, hdata⟩ := (cellLive_iff last).mp (hlast last (.head _))
  have hinside := runOps_cellsOps_inside first hrun hpulse (by omega) (by omega) (by omega) hfirst
  have hcount : (withBits s (bitsOfCells first)).ecnt.toNat = 16 * k + 14 := by
    rw [withBits_ecnt_toNat (by rw [bitsOfCells_length]; omega), bitsOfCells_length]
    omega
  have hopen := edgeAction_afterTicks_opening (s := withBits s (bitsOfCells first)) hpulse hgap (by omega)
  refine ⟨afterTicks last.data { withBits s (bitsOfCells first) with ecnt := BitVec.ofNat 8 (16 * k + 15) }, ?_, rfl, ?_, ?_, ?_⟩
  · rw [cellsOps_append, runOps_append_of_next hinside, cellsOps_cons, runOps_append_of_next (runOps_cellOps last (by exact hrun)),
      hopen, hcount]
    rfl
  · exact afterTicks_pulse_ne_of_live (by exact hpulse) hdata
  · exact (BitVec.toNat_ofNat ..).trans (Nat.mod_eq_of_lt (by omega))
  · have height : (bitsOfCells first ++ [bitOfInterval last.data]).length = 8 := by
      rw [List.length_append, bitsOfCells_length, List.length_singleton, hlength]
    have hbits : bitsOfCells (first ++ [last]) = bitsOfCells first ++ [bitOfInterval last.data] := List.map_append
    have hshift := foldl_shiftIn_eight height s.byte
    rw [List.foldl_append] at hshift
    rw [byteAfterDataEdge_afterTicks (by exact hpulse) hdata, hbits]
    exact hshift

/-! ## The eight bytes of a frame -/

/-- In the middle of a frame that began when the block was s₀: the bytes so far are staged and folded into the checksum. -/
structure Receiving (s₀ : State) (bytes : List Byte) (s : State) : Prop where
  only : OnlyDecoder s₀ s
  sp_eq : s.sp = s₀.sp
  pulse_eq : s.pulse = 0
  ecnt_eq : s.ecnt.toNat = 16 * bytes.length
  crc_eq : s.crc = xorBytes bytes
  cmd_eq : s.cmd.toList.take bytes.length = bytes

/-- After the last edge of a frame. -/
structure FrameReceived (s₀ : State) (bytes : List Byte) (t : State) : Prop where
  only : OnlyDecoder s₀ t
  cmd_eq : t.cmd.toList = bytes
  sp_of_valid : xorBytes bytes = 0 → t.sp = t.cmd
  sp_of_invalid : xorBytes bytes ≠ 0 → t.sp = s₀.sp
  ecnt_eq : t.ecnt = 0
  crc_eq : t.crc = 0
  pulse_eq : t.pulse = 0

theorem xorBytes_concat (bytes : List Byte) (v : Byte) : xorBytes (bytes ++ [v]) = xorBytes bytes ^^^ v := by
  rw [xorBytes_append, xorBytes_cons, xorBytes_nil, BitVec.ofNat_eq_ofNat, BitVec.xor_zero]

theorem OnlyDecoder.run_eq {s t : State} (h : OnlyDecoder s t) : t.run = s.run := by rw [h]

section
variable {s₀ s w : State} {bytes : List Byte} {v : Byte}

theorem BeforeByteEnd.onlyDecoder {k : Nat} (h : BeforeByteEnd s k v w) : OnlyDecoder s w := by
  rw [OnlyDecoder]
  conv_lhs => rw [h.frame]
  rw [h.frame]

/-- A byte before the last is staged. -/
theorem Receiving.byteEnd (h : Receiving s₀ bytes s) (hlength : bytes.length < 7)
    (hw : BeforeByteEnd s bytes.length v w) : Receiving s₀ (bytes ++ [v]) (edgeAction w) := by
  have hecnt := hw.ecnt_eq
  have hindex : byteIndex w.ecnt = bytes.length := by rw [byteIndex_eq]; omega
  have hedge := edgeAction_of_byteEnd hw.pulse_ne (by omega) (by omega)
  have hcmd : w.cmd = s.cmd := by rw [hw.frame]
  have hcrc : w.crc = s.crc := by rw [hw.frame]
  have hsp : w.sp = s.sp := by rw [hw.frame]
  rw [hw.byte_eq, hindex, hcmd, hcrc] at hedge
  refine ⟨(h.only.trans hw.onlyDecoder).trans (edgeAction_only w), ?_, ?_, ?_, ?_, ?_⟩ <;> rw [hedge]
  · exact hsp.trans h.sp_eq
  · rw [List.length_append, List.length_singleton]
    exact (nextCount_toNat (by omega)).trans (by omega)
  · rw [h.crc_eq, xorBytes_concat]
  · rw [List.length_append, List.length_singleton]
    exact (take_succ_setIfInBounds s.cmd (by omega) v).trans (congrArg (· ++ [v]) h.cmd_eq)

/-- The last byte is staged, and the frame published or dropped (R204 to R207). -/
theorem Receiving.frameEnd (h : Receiving s₀ bytes s) (hlength : bytes.length = 7)
    (hw : BeforeByteEnd s bytes.length v w) : FrameReceived s₀ (bytes ++ [v]) (edgeAction w) := by
  have hecnt := hw.ecnt_eq
  have hedge := edgeAction_of_frameEnd hw.pulse_ne ((ecnt_eq_127_iff _).mpr (by omega))
  have hcmd : w.cmd = s.cmd := by rw [hw.frame]
  have hcrc : w.crc = s.crc := by rw [hw.frame]
  have hsp : w.sp = s.sp := by rw [hw.frame]
  have hframe : (frameAfterLastEdge w).toList = bytes ++ [v] := by
    have htake := take_succ_setIfInBounds s.cmd (k := 7) (by omega) v
    rw [← hlength, h.cmd_eq, hlength, List.take_of_length_le (by rw [Vector.length_toList])] at htake
    rw [frameAfterLastEdge, hcmd, hw.byte_eq, htake]
  have hsum : w.crc ^^^ byteAfterDataEdge w = xorBytes (bytes ++ [v]) := by
    rw [hw.byte_eq, hcrc, h.crc_eq, xorBytes_concat]
  rw [hsum] at hedge
  refine ⟨(h.only.trans hw.onlyDecoder).trans (edgeAction_only w), ?_, ?_, ?_, ?_, ?_, ?_⟩ <;> rw [hedge]
  · exact hframe
  · exact fun hvalid => if_pos hvalid
  · exact fun hinvalid => (if_neg hinvalid).trans (hsp.trans h.sp_eq)

end

theorem bytesOfBits_cellsAppend (n : Nat) {byteCells rest : List WireCell} (h : byteCells.length = 8) :
    bytesOfBits (n + 1) (bitsOfCells (byteCells ++ rest)) =
      byteOfBits (bitsOfCells byteCells) :: bytesOfBits n (bitsOfCells rest) := by
  have hlength : (bitsOfCells byteCells).length = 8 := (bitsOfCells_length byteCells).trans h
  have hbits : bitsOfCells (byteCells ++ rest) = bitsOfCells byteCells ++ bitsOfCells rest := List.map_append
  rw [hbits, bytesOfBits, List.take_left' hlength, List.drop_left' hlength]

/-- The rest of a frame, by induction on the bytes to come. -/
theorem runOps_restOfFrame (n : Nat) {s₀ s : State} {bytes : List Byte} {cells : List WireCell} (hrun : s₀.run = true)
    (h : Receiving s₀ bytes s) (hbytes : bytes.length + (n + 1) = 8) (hlength : cells.length = 8 * (n + 1))
    (hlive : ∀ c ∈ cells, cellLive c = true) :
    ∃ t, runOps (cellsOps cells) s = .next t ∧ FrameReceived s₀ (bytes ++ bytesOfBits (n + 1) (bitsOfCells cells)) t := by
  induction n generalizing s bytes cells with
  | zero =>
    obtain ⟨w, hbyte, hw⟩ := runOps_byteCells (h.only.run_eq.trans hrun) h.pulse_eq (by omega) h.ecnt_eq hlength hlive
    refine ⟨_, hbyte, ?_⟩
    rw [bytesOfBits, bytesOfBits, List.take_of_length_le (by rw [bitsOfCells_length]; omega)]
    exact h.frameEnd (by omega) hw
  | succ n ih =>
    obtain ⟨byteCells, rest, rfl, height⟩ : ∃ byteCells rest, cells = byteCells ++ rest ∧ byteCells.length = 8 :=
      ⟨cells.take 8, cells.drop 8, (List.take_append_drop 8 cells).symm, by rw [List.length_take]; omega⟩
    obtain ⟨hbyteLive, hrestLive⟩ := List.forall_mem_append.mp hlive
    rw [List.length_append] at hlength
    obtain ⟨w, hbyte, hw⟩ :=
      runOps_byteCells (h.only.run_eq.trans hrun) h.pulse_eq (by omega) h.ecnt_eq height hbyteLive
    have hnext := h.byteEnd (by omega) hw
    obtain ⟨t, hrest, ht⟩ := ih hnext (by rw [List.length_append, List.length_singleton]; omega) (by omega) hrestLive
    refine ⟨t, by rwa [cellsOps_append, runOps_append_of_next hbyte], ?_⟩
    rwa [bytesOfBits_cellsAppend (n + 1) height, List.append_cons]

end Sys2Proof.Machine
end

section
/-! LAWS. Whole frames on the line (30_encoding.md R92 to R99, R108 to R110; 44_frame_decoder.md section 8): 64 cells received from a frame
start, a frame that was sent, and a frame read one edge late. -/

namespace Sys2Proof.Machine

/-! ## 64 cells from a frame start -/

/-- The decoder as a frame finds it that begins with no gap (R97, R98). -/
def atFrameStart (s : State) : State := { s with pulse := 0, ecnt := 0, crc := 0 }

/-- A saturated interval, or edge 0 with a clear checksum. -/
def FrameMayStart (s : State) (gap : Nat) : Prop := s.pulse.toNat + gap ≥ 255 ∨ s.ecnt = 0 ∧ s.crc = 0

/-- The first edge of a frame is e0, by the resync or because the decoder was there. -/
theorem edgeAction_afterTicks_of_frameMayStart {s : State} {gap : Nat} (h : FrameMayStart s gap) :
    edgeAction (afterTicks gap s) = { s with pulse := 0, ecnt := 1, crc := 0 } := by
  by_cases hp : (afterTicks gap s).pulse = 255
  · exact edgeAction_of_resync hp
  obtain hsat | ⟨hecnt, hcrc⟩ := h
  · refine absurd (BitVec.eq_of_toNat_eq ?_) hp
    rw [afterTicks_pulse_toNat, min_eq_left hsat]
    rfl
  · have hcount : BitVec.ofNat 8 (s.ecnt.toNat + 1) = 1 := by rw [hecnt]; rfl
    rw [edgeAction_of_clockEdge hp (by rw [show (afterTicks gap s).ecnt = 0 from hecnt]; rfl)]
    exact congrArg₂ (fun n c => { s with pulse := 0, ecnt := n, crc := c }) hcount hcrc

/-- A frame start is as good as a clear decoder and no gap. -/
theorem runOps_firstCell {s : State} {first : WireCell} (hrun : s.run = true) (h : FrameMayStart s first.gap) :
    ∃ t, runOps (cellOps first) s = .next t ∧ runOps (cellOps ⟨0, first.data⟩) (atFrameStart s) = .next t := by
  have hclear : FrameMayStart (atFrameStart s) 0 := .inr ⟨rfl, rfl⟩
  refine ⟨_, runOps_cellOps first hrun, ?_⟩
  rw [runOps_cellOps ⟨0, first.data⟩ (by exact hrun),
    edgeAction_afterTicks_of_frameMayStart h, edgeAction_afterTicks_of_frameMayStart hclear]
  rfl

theorem receiving_atFrameStart (s : State) : Receiving s [] (atFrameStart s) := ⟨rfl, rfl, rfl, rfl, rfl, rfl⟩

/-- 64 cells, the first of them from a frame start. -/
theorem runOps_frameCells {s : State} {first : WireCell} {cells : List WireCell} (hrun : s.run = true)
    (hlength : cells.length = 63) (hdata : first.data < 255) (hlive : ∀ c ∈ cells, cellLive c = true)
    (hstart : FrameMayStart s first.gap) :
    ∃ t, runOps (cellsOps (first :: cells)) s = .next t ∧ FrameReceived s (bytesOfBits 8 (bitsOfCells (first :: cells))) t := by
  have hfirst : cellLive ⟨0, first.data⟩ = true := (cellLive_iff _).mpr ⟨Nat.zero_lt_succ 254, hdata⟩
  obtain ⟨t, hcells, ht⟩ := runOps_restOfFrame (cells := ⟨0, first.data⟩ :: cells) 7 hrun (receiving_atFrameStart s) rfl
    (by rw [List.length_cons, hlength]) (List.forall_mem_cons.mpr ⟨hfirst, hlive⟩)
  obtain ⟨u, hcell, hclear⟩ := runOps_firstCell hrun hstart
  rw [cellsOps_cons, runOps_append_of_next hclear] at hcells
  exact ⟨t, by rw [cellsOps_cons, runOps_append_of_next hcell, hcells], ht⟩

/-- Settles O34: the cells of a frame one byte after another, from a frame start. -/
theorem receivedCellsAreStagedAndPublishedIfValid : Obligations.ReceivedCellsAreStagedAndPublishedIfValid := by
  intro s first cells hrun hlength hdata hlive hstart
  obtain ⟨t, hcells, ht⟩ := runOps_frameCells hrun hlength hdata hlive hstart
  refine ⟨t, hcells, ht.cmd_eq, ?_, ?_, ht.ecnt_eq, ht.crc_eq, ht.pulse_eq, ht.only⟩ <;> rw [ht.cmd_eq]
  · exact ht.sp_of_valid
  · exact ht.sp_of_invalid

/-! ## A frame that was sent -/

/-- The bytes of a frame are sent as the cells of its bits (R109, R110). -/
theorem sendBytes_eq (tm : CellTiming) (g0 : Nat) (bytes : List Byte) :
    sendBytes tm g0 bytes = cellsOps (cellsOfBits g0 tm (bitsOfFrame bytes)) := by
  induction bytes generalizing g0 with
  | nil => rfl
  | cons v vs ih =>
    have hbyte : cellsOfBits g0 tm (bitsOfByte v ++ bitsOfFrame vs) =
        cellsOfBits g0 tm (bitsOfByte v) ++ cellsOfBits tm.gap tm (bitsOfFrame vs) := rfl
    rw [sendBytes, sendByte, ih, bitsOfFrame_cons, hbyte, cellsOps_append]

theorem bitsOfFrame_length (bytes : List Byte) : (bitsOfFrame bytes).length = 8 * bytes.length := by
  induction bytes with
  | nil => rfl
  | cons v vs ih => rw [bitsOfFrame_cons, List.length_append, bitsOfByte_length, ih, List.length_cons]; omega

theorem cellsOfBits_length (g0 : Nat) (tm : CellTiming) (bits : List Bool) : (cellsOfBits g0 tm bits).length = bits.length := by
  induction bits generalizing g0 with
  | nil => rfl
  | cons b bits ih => rw [cellsOfBits, List.length_cons, ih, List.length_cons]

/-- The data interval a timing gives a bit (R108). -/
def dataOfBit (tm : CellTiming) (b : Bool) : Nat := if b then tm.d1 else tm.d0

theorem cellsOfBits_cons (g0 : Nat) (tm : CellTiming) (b : Bool) (bits : List Bool) :
    cellsOfBits g0 tm (b :: bits) = ⟨g0, dataOfBit tm b⟩ :: cellsOfBits tm.gap tm bits := rfl

theorem wf_iff (tm : CellTiming) : tm.wf = true ↔ tm.gap < 255 ∧ tm.d1 < 5 ∧ 5 ≤ tm.d0 ∧ tm.d0 < 255 := by
  rw [CellTiming.wf, CellTiming.gapLive, CellTiming.oneShort, CellTiming.zeroLong]
  simp only [Bool.and_eq_true, decide_eq_true_iff, and_assoc]
  rfl

section
variable {tm : CellTiming} (hwf : tm.wf = true)
include hwf

theorem dataOfBit_lt (b : Bool) : dataOfBit tm b < 255 := by
  obtain ⟨-, hone, -, hzero⟩ := (wf_iff tm).mp hwf
  cases b
  · exact hzero
  · exact hone.trans (by decide)

theorem bitOfInterval_dataOfBit (b : Bool) : bitOfInterval (dataOfBit tm b) = b := by
  obtain ⟨-, hone, hzero, -⟩ := (wf_iff tm).mp hwf
  cases b
  · exact decide_eq_false hzero.not_gt
  · exact decide_eq_true hone

/-- The bits that were sent are the bits that are received (R93, R108). -/
theorem bitsOfCells_cellsOfBits (g0 : Nat) (bits : List Bool) : bitsOfCells (cellsOfBits g0 tm bits) = bits := by
  induction bits generalizing g0 with
  | nil => rfl
  | cons b bits ih => exact congrArg₂ List.cons (bitOfInterval_dataOfBit hwf b) (ih tm.gap)

theorem cellsOfBits_live (bits : List Bool) : ∀ c ∈ cellsOfBits tm.gap tm bits, cellLive c = true := by
  induction bits with
  | nil => exact List.forall_mem_nil _
  | cons b bits ih =>
    exact List.forall_mem_cons.mpr ⟨(cellLive_iff _).mpr ⟨((wf_iff tm).mp hwf).1, dataOfBit_lt hwf b⟩, ih⟩

end

/-- Settles O35: a frame's cells carry its bits, and the first gap is a frame start. -/
theorem sentFrameBecomesTheSetpointFrame : Obligations.SentFrameBecomesTheSetpointFrame := by
  intro s tm frame hrun hwf
  have hlength : (bitsOfFrame frame.toList).length = 64 := by rw [bitsOfFrame_length, Vector.length_toList]
  obtain ⟨b, bits, hbits⟩ := List.exists_cons_of_length_eq_add_one hlength
  rw [hbits, List.length_cons] at hlength
  have hfirst : FrameMayStart s 255 := .inl (Nat.le_add_left 255 _)
  obtain ⟨t, hcells, ht⟩ := runOps_frameCells (first := ⟨255, dataOfBit tm b⟩) (cells := cellsOfBits tm.gap tm bits) hrun
    ((cellsOfBits_length ..).trans (Nat.succ.inj hlength)) (dataOfBit_lt hwf b) (cellsOfBits_live hwf bits) hfirst
  rw [← cellsOfBits_cons, ← hbits] at hcells ht
  have hbytes := bytesOfBits_bitsOfFrame frame.toList
  rw [Vector.length_toList] at hbytes
  rw [bitsOfCells_cellsOfBits hwf, hbytes] at ht
  have hcmd : t.cmd = frame := Vector.toList_inj.mp ht.cmd_eq
  refine ⟨t, (congrArg (runOps · s) (sendBytes_eq tm 255 frame.toList)).trans hcells, hcmd, fun hvalid => ?_, ht.sp_of_invalid,
    ht.ecnt_eq, ht.crc_eq⟩
  exact (ht.sp_of_valid hvalid).trans hcmd

/-! ## A frame read one edge late -/

/-- Cells as a decoder one edge late pairs their edges: each gap becomes a data interval, and the first cell opens after n. -/
def slippedCells : Nat → List WireCell → List WireCell
  | _, [] => []
  | n, c :: cells => ⟨n, c.gap⟩ :: slippedCells c.data cells

/-- The interval the last edge of the cells is left with. -/
def lastInterval : Nat → List WireCell → Nat
  | n, [] => n
  | _, c :: cells => lastInterval c.data cells

/-- An edge and then cells are the slipped cells and then an edge. -/
theorem edgeAfter_append_cellsOps (n : Nat) (cells : List WireCell) :
    edgeAfter n ++ cellsOps cells = cellsOps (slippedCells n cells) ++ edgeAfter (lastInterval n cells) := by
  induction cells generalizing n with
  | nil => exact List.append_nil _
  | cons c cells ih =>
    rw [slippedCells, lastInterval, cellsOps_cons, cellsOps_cons, List.append_assoc, ← ih, cellOps, cellOps]
    simp only [List.append_assoc]

theorem slippedCells_length (n : Nat) (cells : List WireCell) : (slippedCells n cells).length = cells.length := by
  induction cells generalizing n with
  | nil => rfl
  | cons c cells ih => rw [slippedCells, List.length_cons, ih, List.length_cons]

theorem bitsOfCells_slippedCells (n : Nat) (cells : List WireCell) :
    bitsOfCells (slippedCells n cells) = cells.map (fun c => bitOfInterval c.gap) := by
  induction cells generalizing n with
  | nil => rfl
  | cons c cells ih => exact congrArg (bitOfInterval c.gap :: ·) (ih c.data)

theorem slippedCells_live {n : Nat} {cells : List WireCell} (hn : n < 255) (hlive : ∀ c ∈ cells, cellLive c = true) :
    (∀ c ∈ slippedCells n cells, cellLive c = true) ∧ lastInterval n cells < 255 := by
  induction cells generalizing n with
  | nil => exact ⟨List.forall_mem_nil _, hn⟩
  | cons c cells ih =>
    obtain ⟨hc, hcells⟩ := List.forall_mem_cons.mp hlive
    obtain ⟨hgap, hdata⟩ := (cellLive_iff c).mp hc
    obtain ⟨hslipped, hlast⟩ := ih hdata hcells
    exact ⟨List.forall_mem_cons.mpr ⟨(cellLive_iff _).mpr ⟨hn, hgap⟩, hslipped⟩, hlast⟩

/-- With uniform gaps every slipped cell carries the same bit. -/
theorem bitsOfCells_slippedCells_cellsOfBits (n : Nat) (tm : CellTiming) (bits : List Bool) :
    bitsOfCells (slippedCells n (cellsOfBits tm.gap tm bits)) = List.replicate bits.length (bitOfInterval tm.gap) := by
  rw [bitsOfCells_slippedCells]
  induction bits with
  | nil => rfl
  | cons b bits ih => exact congrArg (bitOfInterval tm.gap :: ·) ih

/-- The byte of eight equal bits. -/
def equalBitsByte (b : Bool) : Byte := if b then 255 else 0

theorem bytesOfBits_replicate (b : Bool) : bytesOfBits 8 (List.replicate 64 b) = List.replicate 8 (equalBitsByte b) := by
  cases b <;> rfl

theorem xorBytes_equal (b : Bool) : xorBytes (List.replicate 8 (equalBitsByte b)) = 0 := by
  cases b <;> rfl

/-- Slipped into the middle of its first cell, the decoder receives the slipped cells as a frame, and one more edge. -/
theorem runOps_slippedFrame {s : State} {cells : List WireCell} (hrun : s.run = true) (hecnt : s.ecnt = 1) (hcrc : s.crc = 0)
    (hpulse : s.pulse = 0) (hlength : cells.length = 64) (hlive : ∀ c ∈ cells, cellLive c = true) :
    ∃ t, runOps (cellsOps cells) s = .next (edgeAction (afterTicks (lastInterval 0 cells) t)) ∧
      FrameReceived { s with ecnt := 0 } (bytesOfBits 8 (bitsOfCells (slippedCells 0 cells))) t := by
  have hclear : FrameMayStart { s with ecnt := 0 } 0 := .inr ⟨rfl, hcrc⟩
  have hextra : edgeAction (afterTicks 0 { s with ecnt := 0 }) = s := by
    rw [edgeAction_afterTicks_opening (by exact hpulse) (by decide) rfl]
    exact congrArg (fun n => { s with ecnt := n }) hecnt.symm
  have hedge : runOps (edgeAfter 0) { s with ecnt := 0 } = .next s :=
    (runOps_edgeAfter 0 (by exact hrun)).trans (congrArg Host.Outcome.next hextra)
  obtain ⟨c, cells, rfl⟩ := List.exists_cons_of_length_eq_add_one hlength
  obtain ⟨hc, hcells⟩ := List.forall_mem_cons.mp hlive
  obtain ⟨hgap, hdata⟩ := (cellLive_iff c).mp hc
  obtain ⟨t, ht, hreceived⟩ := runOps_frameCells (s := { s with ecnt := 0 }) (first := ⟨0, c.gap⟩) (by exact hrun)
    ((slippedCells_length ..).trans (Nat.succ.inj hlength)) hgap (slippedCells_live hdata hcells).1 hclear
  refine ⟨t, ?_, hreceived⟩
  rw [← runOps_append_of_next hedge, edgeAfter_append_cellsOps, slippedCells, runOps_append_of_next ht]
  exact runOps_edgeAfter _ (hreceived.only.run_eq.trans hrun)

/-- Settles O36: the decoder that counts one edge too many reads the gaps as the data; eight equal bytes are a valid frame, and
the frame's last edge is the first of the next. -/
theorem slippedFrameIsPublishedAsEqualBytes : Obligations.SlippedFrameIsPublishedAsEqualBytes := by
  intro s tm frame hrun hwf hecnt hcrc hpulse
  have hbits : (bitsOfFrame frame.toList).length = 64 := by rw [bitsOfFrame_length, Vector.length_toList]
  have hlive := cellsOfBits_live hwf (bitsOfFrame frame.toList)
  obtain ⟨t, hcells, ht⟩ := runOps_slippedFrame hrun hecnt hcrc hpulse ((cellsOfBits_length ..).trans hbits) hlive
  rw [bitsOfCells_slippedCells_cellsOfBits, hbits, bytesOfBits_replicate] at ht
  have hlast := edgeAction_afterTicks_opening ht.pulse_eq (slippedCells_live (n := 0) (by decide) hlive).2 (by rw [ht.ecnt_eq]; rfl)
  have hsp : t.sp.toList = List.replicate 8 (equalBitsByte (bitOfInterval tm.gap)) := by
    rw [ht.sp_of_valid (xorBytes_equal _), ht.cmd_eq]
  refine ⟨_, (congrArg (runOps · s) (sendBytes_eq tm tm.gap frame.toList)).trans hcells, ?_, ?_, ?_⟩ <;> rw [hlast]
  · rw [ht.ecnt_eq]
    rfl
  · intro hshort
    rw [hsp, show bitOfInterval tm.gap = true from decide_eq_true hshort]
    rfl
  · intro hlong
    rw [hsp, show bitOfInterval tm.gap = false from decide_eq_false (Nat.not_lt.mpr hlong)]
    rfl

end Sys2Proof.Machine
end
